-- ==== Sys2Proof/Word.lean ====
section
/-! DEFINITION. The bit-vector types of the link framer (spec 00 R6, R8; 30 R95). -/

namespace Sys2Proof

/-- 8 bits, the unit of both streams (R8, R50). -/
abbrev Byte := BitVec 8

/-- KEY_W = 16 bits (R6). -/
abbrev Key := BitVec 16

/-- INT_W = 16 bits: the pattern of an integer value (R6, R85). -/
abbrev IntPattern := BitVec 16

/-- FLT_W = 32 bits: the value field of a command, a float's bit pattern, a result (R6, R28, R88). -/
abbrev Value := BitVec 32

/-- The 51-bit host command word `{val[31:0], key[15:0], tag, op[1:0]}` (R95). -/
abbrev CommandWord := BitVec 51

/-- The parity of a key, its bit 0: false is even, true is odd (R12, R90). -/
def parity (key : Key) : Bool := key.getLsbD 0

end Sys2Proof
end

