-- ==== Sys2Proof/Config.lean ====
section
/-! DEFINITION. The parameters of spec 00 R6 (fixed values) and R7 (open or defaulted), and the free values. -/

namespace Sys2Proof

/-- SENTINEL, the handshake byte 0x24, `'$'` (R6). -/
def Config.sentinel : Byte := 0x24

/-- HS_INTERVAL in milliseconds (R6). -/
def Config.hsIntervalMs : Nat := 100

/-- LINK_RATE in symbols per second, the only rate CONFIGURE is called with (R6, R59). -/
def Config.linkRate : BitVec 16 := 19200

/-- KEY_NONE, the reserved key that means "no message" (R6, R91). -/
def Config.keyNone : Key := 0

/-- LEN_INT, the length in bytes of an integer frame (R6). -/
def Config.lenInt : Nat := 4

/-- LEN_FLT, the length in bytes of a float frame (R6). -/
def Config.lenFlt : Nat := 6

/-- F_CLK in Hz: OPEN in R7 and D2. A free value: nothing proves what it is (log 15). -/
opaque Config.fClk : Nat

/-- RXCOUNT_W is OPEN and at least 3 (R7, D19): this free value is what it has above 3 (log 16). -/
opaque Config.rxCountExtra : Nat

/-- The transmit buffer of the UART wrapper in bytes, "of its own choosing" (R194): a free value (log 17). -/
opaque Config.txBufferBytes : Nat

/-- What RXQ holds in the state right after reset: "not reset by the block; any content" (R20, R240, U18).
A free value (log 5). -/
opaque Config.powerUpRxq : List Byte

/-- The parameters of R7 that distinguish one chip from another. A chip's record is fixed for a run (R36(a));
it is carried in the state so that every claim is for every record (log 1). -/
structure Params where
  /-- F_CLK, the clock frequency in Hz. -/
  fClk : Nat
  /-- HS_TIMEOUT_COUNT: sentinel transmissions after which the handshake gives up; 0 means never. -/
  hsTimeoutCount : Nat
  /-- RX_DEPTH: capacity of the inbound buffer in bytes; `none` is unbounded. -/
  rxDepth : Option Nat
  /-- RXCOUNT_W: width of the availability count on the ports. -/
  rxCountW : Nat
  /-- Whether the optional UART wrapper realises the Transport (R4, R192). -/
  uartWrapper : Bool
  /-- How many bytes the wrapper can buffer beside the one being shifted out (R194). -/
  txBuffer : Nat
  deriving DecidableEq, Repr

/-- The limits R7 and R196 set: RXCOUNT_W at least 3, a bounded RX_DEPTH at least 6. -/
def Params.wf (p : Params) : Bool :=
  decide (3 ≤ p.rxCountW) && (match p.rxDepth with | none => true | some d => decide (6 ≤ d))

/-- The defaults of R7: no timeout (the base design), unbounded buffer, F_CLK and RXCOUNT_W free.
DESIGN CHOICE: the default chip has no UART wrapper (log 16). -/
def Params.base : Params :=
  { fClk := Config.fClk
    hsTimeoutCount := 0
    rxDepth := none
    rxCountW := 3 + Config.rxCountExtra
    uartWrapper := false
    txBuffer := Config.txBufferBytes }

end Sys2Proof
end

