-- ==== Sys2Proof/Syntax.lean ====
section
/-! DEFINITION. The 13 rows of spec/opcode_table.json as one inductive, and the four contexts of 30 R97. -/

namespace Sys2Proof

/-- The context a row belongs to (R97). -/
inductive Context where
  | wireFrame      -- a 16-bit key read from RXQ
  | wireHandshake  -- one byte read from RXQ during the handshake
  | encode         -- a unit the framer emits
  | command        -- a host command word
  deriving DecidableEq, Repr

/-- One constructor per row of spec/opcode_table.json, in the table's order. Fields the spec calls ignored
(tag, key and val of OPEN, RECV and the reserved opcode, R96) are not operands (log 25). -/
inductive Instr where
  | decKey0
  | decInt (key : Key)
  | decFlt (key : Key)
  | hsSentinel
  | hsOther (b : Byte)
  | encInt (key : Key) (val : IntPattern)
  | encFlt (key : Key) (pattern : Value)
  | hsTx
  | openLink
  | sendI (key : Key) (val : Value)
  | sendF (key : Key) (val : Value)
  | recv
  | cmdReserved
  deriving DecidableEq, Repr

/-- The context of each row (R97). -/
def Instr.context : Instr → Context
  | .decKey0 | .decInt _ | .decFlt _ => .wireFrame
  | .hsSentinel | .hsOther _ => .wireHandshake
  | .encInt _ _ | .encFlt _ _ | .hsTx => .encode
  | .openLink | .sendI _ _ | .sendF _ _ | .recv | .cmdReserved => .command

end Sys2Proof
end

