-- ==== Sys2Proof/WellFormed.lean ====
section
/-! DEFINITION. Which terms of Instr stand for words of the opcode table (spec 30 R90, R92, R96, R97). -/

namespace Sys2Proof

/-- Each row's operands lie in the row's own part of the encoding: DEC.INT an even nonzero key (DEC.KEY0 has
priority), DEC.FLT an odd key, HS.OTHER a byte other than the sentinel (R97), ENC.INT an even key and ENC.FLT an
odd one (R131, R132). Key 0 is a pattern of ENC.INT; SEND.I never emits it (R172; log 8). -/
def Instr.wellFormed : Instr → Bool
  | .decInt key => key != Config.keyNone && !parity key
  | .decFlt key => parity key
  | .hsOther b => b != Config.sentinel
  | .encInt key _ => !parity key
  | .encFlt key _ => parity key
  | .decKey0 | .hsSentinel | .hsTx => true
  | .openLink | .sendI _ _ | .sendF _ _ | .recv | .cmdReserved => true

end Sys2Proof
end

