-- ==== Sys2Proof/Decode.lean ====
section
/-! DEFINITION. Field assembly and splitting (spec 30 R84 to R87), the decoder of each context (R90, R92, R96,
R97), and after it the encoder. -/

namespace Sys2Proof

/-! ### Assembling and splitting fields -/

/-- R84, R85: a 16-bit field from its two bytes, least significant byte first. -/
def halfOfBytes (b0 b1 : Byte) : BitVec 16 :=
  b0.setWidth 16 ||| (b1.setWidth 16 <<< 8)

/-- R86: a 32-bit field from its four bytes, least significant byte first. -/
def wordOfBytes (b0 b1 b2 b3 : Byte) : BitVec 32 :=
  b0.setWidth 32 ||| (b1.setWidth 32 <<< 8) ||| (b2.setWidth 32 <<< 16) ||| (b3.setWidth 32 <<< 24)

/-- R87: the two bytes of a 16-bit field, in transmission order. -/
def halfBytes (v : BitVec 16) : List Byte :=
  [v.extractLsb' 0 8, v.extractLsb' 8 8]

/-- R87: the four bytes of a 32-bit field, in transmission order. -/
def wordBytes (v : BitVec 32) : List Byte :=
  [v.extractLsb' 0 8, v.extractLsb' 8 8, v.extractLsb' 16 8, v.extractLsb' 24 8]

/-! ### Context wire-frame: the key -/

/-- What a 16-bit key selects (R90). -/
inductive KeyClass where
  | reserved  -- key 0: NoMessage, no value bytes
  | integer   -- even, nonzero: two value bytes
  | float     -- odd: four value bytes
  deriving DecidableEq, Repr

/-- R90, R97: key 0 has priority; otherwise bit 0 is the sole discriminator. -/
def classifyKey (key : Key) : KeyClass :=
  if key = Config.keyNone then .reserved
  else if parity key then .float
  else .integer

/-- The wire-frame row a key matches: DEC.KEY0, DEC.INT or DEC.FLT (R97). -/
def decodeKey (key : Key) : Instr :=
  match classifyKey key with
  | .reserved => .decKey0
  | .integer => .decInt key
  | .float => .decFlt key

/-! ### Context wire-handshake: one byte -/

/-- R92, R97: 0x24 is HS.SENTINEL, every other byte HS.OTHER. -/
def decodeHandshakeByte (b : Byte) : Instr :=
  if b = Config.sentinel then .hsSentinel else .hsOther b

/-! ### Context command: the 51-bit command word -/

/-- `op = CW[1:0]` (R95). -/
def CommandWord.op (cw : CommandWord) : BitVec 2 := cw.extractLsb' 0 2

/-- `tag = CW[2]` (R95). -/
def CommandWord.tag (cw : CommandWord) : Bool := cw.getLsbD 2

/-- `key = CW[18:3]` (R95). -/
def CommandWord.key (cw : CommandWord) : Key := cw.extractLsb' 3 16

/-- `val = CW[50:19]` (R95). -/
def CommandWord.val (cw : CommandWord) : Value := cw.extractLsb' 19 32

/-- R96: the row a command word matches. Total: opcode 3 is CMD.RESERVED whatever the other fields hold. -/
def decodeCommand (cw : CommandWord) : Instr :=
  if CommandWord.op cw = 0 then .openLink
  else if CommandWord.op cw = 1 then
    if CommandWord.tag cw then .sendF (CommandWord.key cw) (CommandWord.val cw)
    else .sendI (CommandWord.key cw) (CommandWord.val cw)
  else if CommandWord.op cw = 2 then .recv
  else .cmdReserved

/-- R95: the command word of four fields. -/
def commandWord (val : Value) (key : Key) (tag : Bool) (op : BitVec 2) : CommandWord :=
  val ++ key ++ BitVec.ofBool tag ++ op

/-! ### The decoder on bytes -/

/-- Why bytes are no unit of a context. -/
inductive DecodeReject where
  | wrongLength           -- not the number of bytes a unit of the context has
  | notTheSentinel        -- a one-byte outbound unit other than 0x24 (R80)
  | oddKeyInIntegerFrame  -- four bytes whose key is odd (R81)
  | evenKeyInFloatFrame   -- six bytes whose key is even (R82)
  | bitsAboveCommandWord  -- a seventh byte with bits above CW[50] (R95)
  deriving DecidableEq, Repr

/-- The number the bytes make, the first byte least significant (R83). -/
def natOfBytes : List Byte → Nat
  | [] => 0
  | b :: bs => b.toNat + 256 * natOfBytes bs

/-- The low `n` bytes of a number, the least significant first. -/
def bytesOfNat : Nat → Nat → List Byte
  | 0, _ => []
  | n + 1, w => BitVec.ofNat 8 w :: bytesOfNat n (w / 256)

/-- An outbound unit: the one-byte sentinel, the four-byte integer frame, the six-byte float frame (R80 to R82). -/
def decodeOutbound : List Byte → Except DecodeReject Instr
  | [b] => if b = Config.sentinel then .ok .hsTx else .error .notTheSentinel
  | [b0, b1, b2, b3] =>
    if parity (halfOfBytes b0 b1) then .error .oddKeyInIntegerFrame
    else .ok (.encInt (halfOfBytes b0 b1) (halfOfBytes b2 b3))
  | [b0, b1, b2, b3, b4, b5] =>
    if parity (halfOfBytes b0 b1) then .ok (.encFlt (halfOfBytes b0 b1) (wordOfBytes b2 b3 b4 b5))
    else .error .evenKeyInFloatFrame
  | _ => .error .wrongLength

/-- A key's two bytes (R84). -/
def decodeFrameKey : List Byte → Except DecodeReject Instr
  | [b0, b1] => .ok (decodeKey (halfOfBytes b0 b1))
  | _ => .error .wrongLength

/-- One byte of the handshake scan (R92). -/
def decodeHandshake : List Byte → Except DecodeReject Instr
  | [b] => .ok (decodeHandshakeByte b)
  | _ => .error .wrongLength

/-- A command word laid out in seven bytes, CW[7:0] first; the top five bits are none of its bits (log 11). -/
def decodeCommandBytes (bs : List Byte) : Except DecodeReject Instr :=
  if bs.length = 7 then
    if natOfBytes bs < 2 ^ 51 then .ok (decodeCommand (BitVec.ofNat 51 (natOfBytes bs)))
    else .error .bitsAboveCommandWord
  else .error .wrongLength

/-- The decoder: total on every context and every list of bytes; it rejects by name. -/
def decode (c : Context) (bs : List Byte) : Except DecodeReject Instr :=
  match c with
  | .wireFrame => decodeFrameKey bs
  | .wireHandshake => decodeHandshake bs
  | .encode => decodeOutbound bs
  | .command => decodeCommandBytes bs

/-- The context whose units have this many bits, exactly or in whole bytes (log 11). A one-byte word is read in the
handshake context, where a decoder must recognise it; HS.TX is the same word seen from the sender (log 9). -/
def contextOfBits : Nat → Option Context
  | 8 => some .wireHandshake
  | 16 => some .wireFrame
  | 32 => some .encode
  | 48 => some .encode
  | 51 => some .command
  | 56 => some .command
  | _ => none

/-- The instruction the decoder reads from a word numbered as spec/opcode_table.json numbers its bits. -/
def decodeTableWord (nbits w : Nat) : Option Instr :=
  match contextOfBits nbits with
  | none => none
  | some c =>
    match decode c (bytesOfNat ((nbits + 7) / 8) w) with
    | .ok i => some i
    | .error _ => none

/-! ### The encoder -/

/-- ENC.INT's bytes (R81, R131): `key_lo, key_hi, val_lo, val_hi`. -/
def integerFrame (key : Key) (val : IntPattern) : List Byte :=
  halfBytes key ++ halfBytes val

/-- ENC.FLT's bytes (R82, R132): `key_lo, key_hi, f0, f1, f2, f3`. -/
def floatFrame (key : Key) (pattern : Value) : List Byte :=
  halfBytes key ++ wordBytes pattern

/-- A command word in seven bytes, CW[7:0] first. -/
def commandBytes (cw : CommandWord) : List Byte :=
  bytesOfNat 7 cw.toNat

/-- The command word of a host command; ignored fields are written as zeros (R96; log 25). -/
def encodeCommand : Instr → CommandWord
  | .openLink => commandWord 0 0 false 0
  | .sendI key val => commandWord val key false 1
  | .sendF key val => commandWord val key true 1
  | .recv => commandWord 0 0 false 2
  | _ => commandWord 0 0 false 3

/-- The bytes of an instruction's word, in its own context. -/
def encode (i : Instr) : List Byte :=
  match i with
  | .decKey0 => halfBytes Config.keyNone
  | .decInt key => halfBytes key
  | .decFlt key => halfBytes key
  | .hsSentinel => [Config.sentinel]
  | .hsOther b => [b]
  | .encInt key val => integerFrame key val
  | .encFlt key pattern => floatFrame key pattern
  | .hsTx => [Config.sentinel]
  | .openLink | .sendI _ _ | .sendF _ _ | .recv | .cmdReserved => commandBytes (encodeCommand i)

end Sys2Proof
end

