-- ==== Sys2Proof/Machine/State.lean ====
section
/-! DEFINITION. The state of spec 10 R20, the model's own fields beside it, the reasons a step can stop, and the
state right after reset (70 R240). -/

namespace Sys2Proof.Machine

/-- PHASE, the sequencer (R22). Codes 5 to 7 are never written and have no value here. -/
inductive Phase where
  | idle    -- 0: no operation in progress
  | hsSend  -- 1: about to transmit a sentinel
  | hsScan  -- 2: examining inbound bytes
  | hsWait  -- 3: waiting out the interval
  | rxWait  -- 4: key consumed, waiting for the value bytes
  deriving DecidableEq, Repr

/-- The tag of a payload's value: Integer is coded 0, Float 1 (R12, R24). -/
inductive Tag where
  | integer
  | float
  deriving DecidableEq, Repr

/-- The result codes of R210. Code 7 is never produced and has no value here (U16). -/
inductive ResultCode where
  | ok                -- 0
  | noMessage         -- 1
  | invalidKeyParity  -- 2
  | handshakeTimeout  -- 3
  | notSynchronized   -- 4
  | keyReserved       -- 5
  | illegalOp         -- 6
  deriving DecidableEq, Repr

/-- A response `{val, key, tag, status}` (R99). -/
structure Response where
  val : Value
  key : Key
  tag : Tag
  status : ResultCode
  deriving DecidableEq, Repr

/-- The line-level state of the optional UART wrapper (R194, R195). The spec describes it without naming
registers: the layout is a DESIGN CHOICE (log 17, 19). -/
structure Uart where
  /-- How many bytes of TXQ the transmitter has taken so far. -/
  txTaken : Nat
  /-- The line levels of the byte being shifted out, the current one first; empty when the line idles high. -/
  txShift : List Bool
  /-- Ticks left of the current level after this one. -/
  txTicks : Nat
  /-- The level of the receive line at the last tick. -/
  rxPrev : Bool
  /-- The data bits sampled so far, least significant first; `none` when no byte is being received. -/
  rxBits : Option (List Bool)
  /-- Ticks to pass before the next sample. -/
  rxTicks : Nat
  deriving DecidableEq, Repr

/-- Which agent moves (R10), with what the environment supplies. The model's own (log 2, 3, 21). -/
inductive Turn where
  | framer                                  -- the framer's step, if one is enabled
  | host                                    -- the host issues the command at the port, if PHASE is IDLE
  | withdraw                                -- the host withdraws the command at the port (R165)
  | peer (b : Byte)                         -- the peer appends a byte (R60)
  | time (line : Bool)                      -- one clock tick, with the level of the UART receive line
  | reset (platformRxq : Option (List Byte)) -- reset (R240); a platform may also replace the transport's buffer (R200)
  deriving DecidableEq, Repr

/-- The complete state. The first fifteen fields are R20's tuple; `uart` is the optional wrapper's; the last four
are the model's own. -/
structure State where
  /-- SYNC (R21). -/
  sync : Bool
  /-- PHASE (R22). -/
  phase : Phase
  /-- TXKEY (R23). -/
  txKey : Key
  /-- TXTAG (R24). -/
  txTag : Tag
  /-- TXVAL (R25). -/
  txVal : Value
  /-- RXKEY (R26). -/
  rxKey : Key
  /-- RXTAG (R27). -/
  rxTag : Tag
  /-- RXVAL (R28). -/
  rxVal : Value
  /-- STATUS (R29). -/
  status : ResultCode
  /-- KEYREG (R30), hidden. -/
  keyReg : Key
  /-- HSCOUNT (R31), hidden; HSCOUNT_W = 16. -/
  hsCount : BitVec 16
  /-- HSTIMER (R32), hidden; "enough bits for HS_INTERVAL_TICKS", so a count. -/
  hsTimer : Nat
  /-- BAUD (R33). -/
  baud : BitVec 16
  /-- RXQ (R34), oldest byte first. -/
  rxq : List Byte
  /-- TXQ (R35), the log of every byte written, oldest first. -/
  txq : List Byte
  /-- The optional UART wrapper's line-level state. -/
  uart : Uart
  /-- Own field: the chip's parameters, which no step writes (log 1). -/
  params : Params
  /-- Own field: the command words the host presents, in order; the head stands at the port (log 3). -/
  hostCmds : List CommandWord
  /-- Own field: which agents move next; empty means the default order (log 2). -/
  turns : List Turn
  /-- Own field: the responses presented so far, oldest first (R99; log 4). -/
  rspLog : List Response
  deriving DecidableEq, Repr

/-- Reasons for a fault. There is none: the block has no traps; every condition is a code in STATUS and the
machine goes on (spec 60, opening, R222, R233; log 23). -/
inductive Fault where
  deriving DecidableEq, Repr

/-- Reasons for a refusal. -/
inductive Refusal where
  /-- An arm of exec whose instruction has no meaning yet; no arm of this model uses it. Safe. -/
  | notModelled (mnemonic : String)
  deriving DecidableEq, Repr

/-- The wrapper with no byte in either shifter and the line high (DESIGN CHOICE, log 17, 19). -/
def Uart.idle : Uart :=
  { txTaken := 0, txShift := [], txTicks := 0, rxPrev := true, rxBits := none, rxTicks := 0 }

/-- The state right after reset at the start of a run (R20, R240): every register 0, RXQ arbitrary, TXQ empty.
The own fields' values are DESIGN CHOICEs (log 1 to 4, 16). -/
def State.reset : State :=
  { sync := false
    phase := .idle
    txKey := 0
    txTag := .integer
    txVal := 0
    rxKey := 0
    rxTag := .integer
    rxVal := 0
    status := .ok
    keyReg := 0
    hsCount := 0
    hsTimer := 0
    baud := 0
    rxq := Config.powerUpRxq
    txq := []
    uart := Uart.idle
    params := Params.base
    hostCmds := []
    turns := []
    rspLog := [] }

end Sys2Proof.Machine
end

