-- ==== Sys2Proof/Machine/Operands.lean ====
section
/-! DEFINITION. Operand forms: the tag of a key, the value latches' patterns, the payload's bytes, the derived
parameters, and taking bytes from the head of a stream (spec 30 R84 to R91, 41, 00 R7, 20 R57). -/

namespace Sys2Proof.Machine

/-- The tag's one bit: Integer 0, Float 1 (R12, R24). -/
def Tag.bit : Tag → Bool
  | .integer => false
  | .float => true

/-- The tag a key selects: its bit 0 (R90). -/
def Tag.ofKey (key : Key) : Tag :=
  if parity key then .float else .integer

/-- The integer operand of a 32-bit value: bits 15:0; bits 31:16 are ignored (R25, R131). -/
def integerOf (v : Value) : IntPattern := v.extractLsb' 0 16

/-- The 32-bit result of a 16-bit integer pattern: sign extension (R28, R85). -/
def resultOfInteger (v16 : IntPattern) : Value := v16.signExtend 32

/-- ENCODE (R130 to R133): a pure function of the payload; a key whose bit 0 differs from the tag gives the error
and no bytes. -/
def encodePayload (key : Key) (tag : Tag) (v : Value) : Except ResultCode (List Byte) :=
  if parity key = tag.bit then
    match tag with
    | .integer => .ok (integerFrame key (integerOf v))
    | .float => .ok (floatFrame key v)
  else .error .invalidKeyParity

/-- RxRead's view of a stream (R57): the first `n` bytes and the rest, or `none` when fewer than `n` are
buffered, where RxRead has no meaning. -/
def takeBytes : Nat → List Byte → Option (List Byte × List Byte)
  | 0, q => some ([], q)
  | _ + 1, [] => none
  | n + 1, b :: q =>
    match takeBytes n q with
    | some (bs, rest) => some (b :: bs, rest)
    | none => none

/-- HS_INTERVAL_TICKS = ceil(HS_INTERVAL x F_CLK) (R7, D10). -/
def hsIntervalTicks (p : Params) : Nat :=
  (Config.hsIntervalMs * p.fClk + 999) / 1000

/-- CLKS_PER_BIT = round(F_CLK / baud) (R7, R192); a tie rounds up (DESIGN CHOICE, log 18). -/
def clksPerBit (p : Params) (baud : BitVec 16) : Nat :=
  (2 * p.fClk + baud.toNat) / (2 * baud.toNat)

end Sys2Proof.Machine
end

