-- ==== Sys2Proof/Machine/Flags.lean ====
section
/-! DEFINITION. The codes of PHASE and STATUS, the session-mode flag's test and the checks of a send in their
order (spec 10 R21, R22, R29; 43 R170 to R174; 60 R210). -/

namespace Sys2Proof.Machine

/-- The 3-bit code of PHASE (R22). -/
def Phase.code : Phase → BitVec 3
  | .idle => 0
  | .hsSend => 1
  | .hsScan => 2
  | .hsWait => 3
  | .rxWait => 4

/-- The 3-bit code in STATUS (R210). -/
def ResultCode.code : ResultCode → BitVec 3
  | .ok => 0
  | .noMessage => 1
  | .invalidKeyParity => 2
  | .handshakeTimeout => 3
  | .notSynchronized => 4
  | .keyReserved => 5
  | .illegalOp => 6

/-- The phases of ESTABLISH (R22). -/
def Phase.inHandshake : Phase → Bool
  | .hsSend | .hsScan | .hsWait => true
  | .idle | .rxWait => false

/-- The first failing check of a send, in the order of R174: session mode (R170), parity (R171), reserved key
(R172); `none` when the send goes through. It reads SYNC and the operand latches. -/
def sendCheck (s : State) : Option ResultCode :=
  if !s.sync then some .notSynchronized
  else if parity s.txKey != s.txTag.bit then some .invalidKeyParity
  else if s.txKey = Config.keyNone then some .keyReserved
  else none

/-- The key stage's context: PHASE = IDLE in a synchronized session (R97, R145). -/
def inKeyStage (s : State) : Bool :=
  s.phase == .idle && s.sync

/-- The value stage of the frame whose key is `key`: PHASE = RX_WAIT with that key in KEYREG (R150, R151). -/
def inValueStage (key : Key) (s : State) : Bool :=
  s.phase == .rxWait && s.keyReg == key

/-- The handshake's timeout test (R116): enabled, and HSCOUNT has reached the bound. -/
def timeoutReached (s : State) : Bool :=
  s.params.hsTimeoutCount != 0 && decide (s.params.hsTimeoutCount ≤ s.hsCount.toNat)

end Sys2Proof.Machine
end

