-- ==== Sys2Proof/Machine/Ops.lean ====
section
/-! DEFINITION. The shared operations: one writer per group of registers, the Transport's primitives
(spec 20 R56 to R60), and raising a condition (60 R222). -/

namespace Sys2Proof.Machine

/-! ### Writers -/

/-- `PHASE <- p`. -/
def State.setPhase (s : State) (p : Phase) : State := { s with phase := p }

/-- `SYNC <- b`. -/
def State.setSync (s : State) (b : Bool) : State := { s with sync := b }

/-- `KEYREG <- key` (R149). -/
def State.setKeyReg (s : State) (key : Key) : State := { s with keyReg := key }

/-- `HSCOUNT <- n`. -/
def State.setHsCount (s : State) (n : BitVec 16) : State := { s with hsCount := n }

/-- `HSTIMER <- n`. -/
def State.setHsTimer (s : State) (n : Nat) : State := { s with hsTimer := n }

/-- The wrapper's line-level state. -/
def State.setUart (s : State) (u : Uart) : State := { s with uart := u }

/-- RXQ as a whole; used by RxRead and the peer's append. -/
def State.setRxq (s : State) (q : List Byte) : State := { s with rxq := q }

/-- Own field: the agents' turns still to come. -/
def State.setTurns (s : State) (ts : List Turn) : State := { s with turns := ts }

/-- Own field: the host's commands still to come. -/
def State.setHostCmds (s : State) (cs : List CommandWord) : State := { s with hostCmds := cs }

/-- The operand latches, loaded when a send is accepted, before any check (R23, R24, R25). -/
def State.latchSend (s : State) (key : Key) (tag : Tag) (v : Value) : State :=
  { s with txKey := key, txTag := tag, txVal := v }

/-- The result latches, written together by a completing RECV (R26, R27, R28, R153). -/
def State.latchResult (s : State) (key : Key) (tag : Tag) (v : Value) : State :=
  { s with rxKey := key, rxTag := tag, rxVal := v }

/-! ### The Transport's primitives -/

/-- RxAvail (R56): the number of bytes buffered inbound. -/
def rxAvail (s : State) : Nat := s.rxq.length

/-- RxRead(n) (R57): the first `n` bytes of RXQ and the state without them; `none`, no meaning, when fewer are
buffered. -/
def rxRead (n : Nat) (s : State) : Option (List Byte × State) :=
  match takeBytes n s.rxq with
  | some (bs, rest) => some (bs, s.setRxq rest)
  | none => none

/-- TxWrite (R58): the bytes go to the tail of TXQ. -/
def State.txWrite (s : State) (bs : List Byte) : State := { s with txq := s.txq ++ bs }

/-- CONFIGURE(rate) (R59): BAUD only; neither stream changes. -/
def State.configure (s : State) (rate : BitVec 16) : State := { s with baud := rate }

/-! ### Ending an operation -/

/-- The response of the moment (R99). -/
def State.response (s : State) (c : ResultCode) : Response :=
  { val := s.rxVal, key := s.rxKey, tag := s.rxTag, status := c }

/-- The end of an operation: STATUS takes the code, PHASE goes to IDLE, a response is presented (R9, R99, R222). -/
def State.finish (s : State) (c : ResultCode) : State :=
  { s with status := c, phase := .idle, rspLog := s.rspLog ++ [s.response c] }

/-- `complete(C)` (R9): the operation ends normally. -/
def State.complete (s : State) (c : ResultCode) : State := s.finish c

/-- `raise C` (R222), the block's one way of taking a condition: `STATUS <- C`, `PHASE <- IDLE`, a response, and
nothing else. Nothing is saved and control goes nowhere; there is nothing to return from (R223). -/
def State.raise (s : State) (c : ResultCode) : State := s.finish c

/-- The result NoMessage: zeros in all three result latches, then completion (R145, R146, R148). -/
def State.completeNoMessage (s : State) : State :=
  (s.latchResult Config.keyNone .integer 0).complete .noMessage

/-! ### The inbound stream's other end -/

/-- Whether RXQ can take another byte (R60, R198). -/
def rxHasRoom (s : State) : Bool :=
  match s.params.rxDepth with
  | none => true
  | some d => decide (s.rxq.length < d)

/-- With the UART wrapper and BAUD = 0, bytes that arrive are lost (R192; log 20). -/
def transportDeaf (s : State) : Bool :=
  s.params.uartWrapper && s.baud == 0

/-- A byte arrives at the inbound stream (R60): appended, or dropped silently at a full buffer (R198). -/
def State.peerArrive (s : State) (b : Byte) : State :=
  if !transportDeaf s && rxHasRoom s then s.setRxq (s.rxq ++ [b]) else s

end Sys2Proof.Machine
end

