-- ==== Sys2Proof/Machine/Handshake.lean ====
section
/-! DEFINITION. ESTABLISH (spec 40): the units HS.TX, HS.SENTINEL and HS.OTHER, and the framer's steps that handle
no unit. A step that is not enabled changes nothing (R10; log 6). -/

namespace Sys2Proof.Machine

/-- `min(HSCOUNT + 1, 2^HSCOUNT_W - 1)` (R111). -/
def hsCountNext (n : BitVec 16) : BitVec 16 :=
  if n = BitVec.allOnes 16 then n else n + 1

/-- HS.TX (R111), enabled in HS_SEND: the sentinel goes out, HSCOUNT counts it, the scan begins. -/
def execHsTx (s : State) : Host.Outcome State Fault Refusal :=
  if s.phase = .hsSend then
    .next (((s.txWrite [Config.sentinel]).setHsCount (hsCountNext s.hsCount)).setPhase .hsScan)
  else .next s

/-- HS.SENTINEL (R113), enabled in HS_SCAN with 0x24 at the head of RXQ: exactly this byte is consumed, SYNC is
set, OPEN completes. -/
def execHsSentinel (s : State) : Host.Outcome State Fault Refusal :=
  if s.phase = .hsScan then
    match rxRead 1 s with
    | some ([b], s1) =>
      if b = Config.sentinel then .next ((s1.setSync true).complete .ok) else .next s
    | _ => .next s
  else .next s

/-- HS.OTHER (R114), enabled in HS_SCAN with this byte, not 0x24, at the head of RXQ: it is consumed and dropped,
and the scan goes on. -/
def execHsOther (other : Byte) (s : State) : Host.Outcome State Fault Refusal :=
  if s.phase = .hsScan then
    match rxRead 1 s with
    | some ([b], s1) =>
      if b = other ∧ b ≠ Config.sentinel then .next (s1.setPhase .hsScan) else .next s
    | _ => .next s
  else .next s

/-- HS_SCAN with RXQ empty (R112): the interval timer is loaded and the wait begins. -/
def hsScanEmpty (s : State) : State :=
  (s.setHsTimer (hsIntervalTicks s.params)).setPhase .hsWait

/-- HS_WAIT (R115, R116), enabled when HSTIMER is 0: the next turn of the loop, or the timeout. -/
def hsWaitOver (s : State) : State :=
  if s.hsTimer = 0 then
    if timeoutReached s then s.raise .handshakeTimeout else s.setPhase .hsSend
  else s

end Sys2Proof.Machine
end

