-- ==== Sys2Proof/Machine/Uart.lean ====
section
/-! DEFINITION. The optional UART wrapper (spec 44 R192 to R200), one clock tick at a time. -/

namespace Sys2Proof.Machine

/-- The ten line levels of a byte (R193): start bit low, eight data bits least significant first, stop bit high. -/
def lineLevels (b : Byte) : List Bool :=
  [false, b.getLsbD 0, b.getLsbD 1, b.getLsbD 2, b.getLsbD 3, b.getLsbD 4, b.getLsbD 5, b.getLsbD 6, b.getLsbD 7,
    true]

/-- The byte of eight data bits, least significant first (R193). -/
def byteOfBits : List Bool → Byte
  | [] => 0
  | d :: ds => (byteOfBits ds <<< 1) ||| (BitVec.ofBool d).setWidth 8

/-- The bit period in ticks (R192), derived from BAUD. -/
def bitPeriod (s : State) : Nat := clksPerBit s.params s.baud

/-- The level the transmitter drives; the line idles high (R193). -/
def txLine (s : State) : Bool :=
  match s.uart.txShift with
  | [] => true
  | level :: _ => level

/-- The bytes written to TXQ that the transmitter has not taken: the wrapper's buffer. -/
def txBuffered (s : State) : Nat := s.txq.length - s.uart.txTaken

/-- `tx_ready` of the wrapper (R194): there is room in the buffer, or beside an idle line for the one byte that goes
out next; low while the wrapper cannot take a byte. -/
def wrapperReady (s : State) : Bool :=
  decide (txBuffered s < s.params.txBuffer + if s.uart.txShift = [] then 1 else 0)

/-- The transmitter's tick (R194): hold the level for a bit period, go on to the next, or take the next byte of
TXQ when the line is idle. -/
def uartTransmit (s : State) : State :=
  match s.uart.txShift with
  | [] =>
    match s.txq.drop s.uart.txTaken with
    | [] => s
    | b :: _ =>
      s.setUart { s.uart with
        txTaken := s.uart.txTaken + 1, txShift := lineLevels b, txTicks := bitPeriod s - 1 }
  | _ :: rest =>
    if s.uart.txTicks = 0 then s.setUart { s.uart with txShift := rest, txTicks := bitPeriod s - 1 }
    else s.setUart { s.uart with txTicks := s.uart.txTicks - 1 }

/-- The receiver's tick (R195): a high-to-low change on the idle line is a start bit; each data bit is sampled at
the middle of its period; after the eighth the byte arrives at RXQ; the stop bit is not checked. -/
def uartReceive (line : Bool) (s : State) : State :=
  match s.uart.rxBits with
  | none =>
    if s.uart.rxPrev && !line then
      s.setUart { s.uart with
        rxPrev := line, rxBits := some [], rxTicks := bitPeriod s + bitPeriod s / 2 - 1 }
    else s.setUart { s.uart with rxPrev := line }
  | some bits =>
    if s.uart.rxTicks = 0 then
      if bits.length + 1 < 8 then
        s.setUart { s.uart with rxPrev := line, rxBits := some (bits ++ [line]), rxTicks := bitPeriod s - 1 }
      else
        (s.setUart { s.uart with rxPrev := line, rxBits := none, rxTicks := 0 }).peerArrive
          (byteOfBits (bits ++ [line]))
    else s.setUart { s.uart with rxPrev := line, rxTicks := s.uart.rxTicks - 1 }

/-- The wrapper's tick. While BAUD = 0 it neither transmits nor receives; line activity is ignored (R192). -/
def uartTick (line : Bool) (s : State) : State :=
  if s.params.uartWrapper then
    if s.baud = 0 then s.setUart { s.uart with rxPrev := line }
    else uartReceive line (uartTransmit s)
  else s

/-- Reset stops the line: a byte being shifted in or out is abandoned (R200). What of TXQ was not yet taken stays
to be sent (log 17). DESIGN CHOICE: the last level seen on the receive line, a sample of the outside and no register
that R232 or R240 names, is kept through the reset (log 19). -/
def Uart.abandon (u : Uart) : Uart :=
  { u with txShift := [], txTicks := 0, rxBits := none, rxTicks := 0 }

end Sys2Proof.Machine
end

