-- ==== Sys2Proof/Machine/Agents.lean ====
section
/-! DEFINITION. The agents' steps (spec 00 R10) and what a turn fetches: the framer's unit, the host's command. -/

namespace Sys2Proof.Machine

/-- The unit the framer's next step handles (R22): HS.TX in HS_SEND; in HS_SCAN the row of the byte at the head
of RXQ (R113, R114: the two outcomes of reading one byte); in RX_WAIT the frame of KEYREG (R150, R151). -/
def fetchUnit (s : State) : Option Instr :=
  match s.phase with
  | .hsSend => some .hsTx
  | .hsScan =>
    match s.rxq with
    | b :: _ => some (decodeHandshakeByte b)
    | [] => none
  | .rxWait => some (if parity s.keyReg then .decFlt s.keyReg else .decInt s.keyReg)
  | .idle | .hsWait => none

/-- The framer's step when there is no unit: R112 in HS_SCAN, R115 and R116 in HS_WAIT, nothing in IDLE. -/
def sequencerStep (s : State) : State :=
  match s.phase with
  | .hsScan => hsScanEmpty s
  | .hsWait => hsWaitOver s
  | .idle | .hsSend | .rxWait => s

/-- Whether the framer has an enabled step that changes the state (R111 to R116, R150 to R152). -/
def framerEnabled (s : State) : Bool :=
  match s.phase with
  | .idle => false
  | .hsSend | .hsScan => true
  | .hsWait => s.hsTimer == 0
  | .rxWait => decide ((if parity s.keyReg then 4 else 2) ≤ rxAvail s)

/-- The command at the port, taken from it when PHASE = IDLE (R165); otherwise it waits. -/
def fetchCommand (s : State) : Option (Instr × State) :=
  if s.phase = .idle then
    match s.hostCmds with
    | cw :: rest => some (decodeCommand cw, s.setHostCmds rest)
    | [] => none
  else none

/-- The host withdraws the command at the port (R165). -/
def withdrawCommand (s : State) : State := s.setHostCmds s.hostCmds.tail

/-- One tick (R32, R115): HSTIMER counts down in HS_WAIT; the UART wrapper, if built, moves its line. -/
def timeTick (line : Bool) (s : State) : State :=
  uartTick line (if s.phase = .hsWait ∧ s.hsTimer ≠ 0 then s.setHsTimer (s.hsTimer - 1) else s)

/-- Reset (R240, R241): every register to its reset value, whatever is in progress, with no response; TXQ is
unchanged, and so is RXQ unless the platform replaces it (R200; log 21). -/
def applyReset (platformRxq : Option (List Byte)) (s : State) : State :=
  { State.reset with
    rxq := platformRxq.getD s.rxq
    txq := s.txq
    uart := s.uart.abandon
    params := s.params
    hostCmds := s.hostCmds
    turns := s.turns
    rspLog := s.rspLog }

/-- The default order when no turn is listed: the framer's enabled step, else the host's waiting command, else a
tick with the receive line high (log 2). -/
def defaultTurn (s : State) : Turn :=
  if framerEnabled s then .framer
  else if s.phase == .idle && !s.hostCmds.isEmpty then .host
  else .time true

/-- Which agent moves, and the state with that turn taken off the list. -/
def nextTurn (s : State) : Turn × State :=
  match s.turns with
  | t :: ts => (t, s.setTurns ts)
  | [] => (defaultTurn s, s)

/-- A command word at the port of a block in IDLE, with the host to move. -/
def placeCommand (cw : CommandWord) (s : State) : State :=
  { s with phase := .idle, hostCmds := cw :: s.hostCmds, turns := .host :: s.turns }

/-- A byte at the head of RXQ in HS_SCAN, with the framer to move. -/
def placeScanByte (b : Byte) (s : State) : State :=
  { s with phase := .hsScan, rxq := b :: s.rxq, turns := .framer :: s.turns }

/-- A key's two bytes at the head of RXQ in a synchronized session, with RECV at the port. -/
def placeKey (key : Key) (s : State) : State :=
  placeCommand (encodeCommand .recv) { s with sync := true, rxq := halfBytes key ++ s.rxq }

/-- Where a table word is placed so that the next step handles it (log 12): a handshake byte in RXQ during the
scan; a key in RXQ with RECV at the port; an emitted frame as the SEND.I or SEND.F of its fields at the port of a
synchronized session; a command word at the port. -/
def placeUnit (i : Instr) (w : Nat) (s : State) : State :=
  match i with
  | .hsSentinel => placeScanByte Config.sentinel s
  | .hsOther b => placeScanByte b s
  | .hsTx => { s with phase := .hsSend, turns := .framer :: s.turns }
  | .decKey0 => placeKey Config.keyNone s
  | .decInt key => placeKey key s
  | .decFlt key => placeKey key s
  | .encInt key val => placeCommand (encodeCommand (.sendI key (val.setWidth 32))) { s with sync := true }
  | .encFlt key pattern => placeCommand (encodeCommand (.sendF key pattern)) { s with sync := true }
  | .openLink | .sendI _ _ | .sendF _ _ | .recv | .cmdReserved => placeCommand (BitVec.ofNat 51 w) s

end Sys2Proof.Machine
end

