-- ==== Sys2Proof/Machine/FrameDecode.lean ====
section
/-! DEFINITION. The wire-frame context (spec 42): what DEC.KEY0, DEC.INT and DEC.FLT do in the key stage
(PHASE = IDLE, the key's bytes already consumed) and in the value stage (PHASE = RX_WAIT) (log 10). -/

namespace Sys2Proof.Machine

/-- DEC.KEY0 (R148), the continuation of the key stage with key 0: NoMessage; no value byte is read. -/
def execDecKey0 (s : State) : Host.Outcome State Fault Refusal :=
  if inKeyStage s then .next s.completeNoMessage else .next s

/-- The key stage with a nonzero key (R149): the operation goes on in RX_WAIT; no result, no response yet. -/
def recognizeFrame (key : Key) (s : State) : State :=
  (s.setKeyReg key).setPhase .rxWait

/-- The value stage for an integer (R150): both value bytes at once, or a hold that changes nothing (R152). -/
def takeInteger (s : State) : State :=
  match rxRead 2 s with
  | some ([b2, b3], s1) =>
    (s1.latchResult s.keyReg .integer (resultOfInteger (halfOfBytes b2 b3))).complete .ok
  | _ => s

/-- The value stage for a float (R151): all four value bytes at once, or a hold that changes nothing (R152). -/
def takeFloat (s : State) : State :=
  match rxRead 4 s with
  | some ([b2, b3, b4, b5], s1) =>
    (s1.latchResult s.keyReg .float (wordOfBytes b2 b3 b4 b5)).complete .ok
  | _ => s

/-- DEC.INT (R149, R150, R152). Key 0 has no key stage here (R148 has priority, R97). -/
def execDecInt (key : Key) (s : State) : Host.Outcome State Fault Refusal :=
  if parity key then .next s
  else if inKeyStage s && key != Config.keyNone then .next (recognizeFrame key s)
  else if inValueStage key s then .next (takeInteger s)
  else .next s

/-- DEC.FLT (R149, R151, R152). -/
def execDecFlt (key : Key) (s : State) : Host.Outcome State Fault Refusal :=
  if !parity key then .next s
  else if inKeyStage s then .next (recognizeFrame key s)
  else if inValueStage key s then .next (takeFloat s)
  else .next s

end Sys2Proof.Machine
end

