-- ==== Sys2Proof/Machine/FrameEncode.lean ====
section
/-! DEFINITION. The encode context (spec 41): an emitted frame. ENCODE itself is the pure function encodePayload;
the unit's effect is the TxWrite of its bytes (log 7). -/

namespace Sys2Proof.Machine

/-- A payload is encoded and its bytes written, or the parity error is raised and nothing is written (R130,
R133). -/
def emitPayload (key : Key) (tag : Tag) (v : Value) (s : State) : Host.Outcome State Fault Refusal :=
  match encodePayload key tag v with
  | .ok bs => .next (s.txWrite bs)
  | .error c => .next (s.raise c)

/-- ENC.INT (R131). -/
def execEncInt (key : Key) (val : IntPattern) (s : State) : Host.Outcome State Fault Refusal :=
  emitPayload key .integer (val.setWidth 32) s

/-- ENC.FLT (R132). -/
def execEncFlt (key : Key) (pattern : Value) (s : State) : Host.Outcome State Fault Refusal :=
  emitPayload key .float pattern s

end Sys2Proof.Machine
end

