-- ==== Sys2Proof/Machine/Session.lean ====
section
/-! DEFINITION. The host commands (spec 43). Each is accepted only when PHASE = IDLE; otherwise it waits at the
port and the block does nothing with it (R165; log 6). -/

namespace Sys2Proof.Machine

/-- OPEN's accepting step (R166): SYNC is cleared, the transport configured at LINK_RATE, HSCOUNT cleared, and
ESTABLISH begins. -/
def execOpen (s : State) : Host.Outcome State Fault Refusal :=
  if s.phase = .idle then
    .next ((((s.setSync false).configure Config.linkRate).setHsCount 0).setPhase .hsSend)
  else .next s

/-- A send whose operands stand in the latches (R167, R168): the first failing check is raised and nothing is
written; otherwise the frame of TXKEY, TXTAG, TXVAL goes to TXQ and the send completes with OK. -/
def sendLatched (s : State) : State :=
  match sendCheck s with
  | some c => s.raise c
  | none =>
    match encodePayload s.txKey s.txTag s.txVal with
    | .ok bs => (s.txWrite bs).complete .ok
    | .error c => s.raise c

/-- SEND.I (R167). -/
def execSendI (key : Key) (val : Value) (s : State) : Host.Outcome State Fault Refusal :=
  if s.phase = .idle then .next (sendLatched (s.latchSend key .integer val)) else .next s

/-- SEND.F (R168). -/
def execSendF (key : Key) (val : Value) (s : State) : Host.Outcome State Fault Refusal :=
  if s.phase = .idle then .next (sendLatched (s.latchSend key .float val)) else .next s

/-- The key stage of DECODE (R146 to R149) in one step: fewer than two bytes give NoMessage and consume nothing;
otherwise the key's two bytes are consumed and the row the key selects runs. -/
def keyStage (s : State) : Host.Outcome State Fault Refusal :=
  match rxRead 2 s with
  | some ([b0, b1], s1) =>
    match classifyKey (halfOfBytes b0 b1) with
    | .reserved => execDecKey0 s1
    | .integer => execDecInt (halfOfBytes b0 b1) s1
    | .float => execDecFlt (halfOfBytes b0 b1) s1
  | _ => .next s.completeNoMessage

/-- RECV's accepting step (R169): the session-mode check (R170), then the key stage. -/
def execRecv (s : State) : Host.Outcome State Fault Refusal :=
  if s.phase = .idle then
    if s.sync then keyStage s else .next (s.raise .notSynchronized)
  else .next s

/-- The reserved opcode (R173): ILLEGAL_OP in either session mode, nothing else. -/
def execCmdReserved (s : State) : Host.Outcome State Fault Refusal :=
  if s.phase = .idle then .next (s.raise .illegalOp) else .next s

end Sys2Proof.Machine
end

