-- ==== Sys2Proof/Machine/Dispatch.lean ====
section
/-! DEFINITION. One arm per row of the opcode table. -/

namespace Sys2Proof.Machine

def exec (i : Instr) (s : State) : Host.Outcome State Fault Refusal :=
  match i with
  | .decKey0 => Sys2Proof.Machine.execDecKey0 s
  | .decInt key => Sys2Proof.Machine.execDecInt key s
  | .decFlt key => Sys2Proof.Machine.execDecFlt key s
  | .hsSentinel => Sys2Proof.Machine.execHsSentinel s
  | .hsOther b => Sys2Proof.Machine.execHsOther b s
  | .encInt key val => Sys2Proof.Machine.execEncInt key val s
  | .encFlt key pattern => Sys2Proof.Machine.execEncFlt key pattern s
  | .hsTx => Sys2Proof.Machine.execHsTx s
  | .openLink => Sys2Proof.Machine.execOpen s
  | .sendI key val => Sys2Proof.Machine.execSendI key val s
  | .sendF key val => Sys2Proof.Machine.execSendF key val s
  | .recv => Sys2Proof.Machine.execRecv s
  | .cmdReserved => Sys2Proof.Machine.execCmdReserved s

end Sys2Proof.Machine
end

