-- ==== Sys2Proof/Machine/Step.lean ====
section
/-! DEFINITION. One step of the machine: the turn's agent moves (spec 00 R10). -/

namespace Sys2Proof.Machine

/-- The framer's turn: the unit it handles runs; without one, the sequencer's own step. -/
def framerTurn (s : State) : Host.Outcome State Fault Refusal :=
  match fetchUnit s with
  | some i => exec i s
  | none => .next (sequencerStep s)

/-- The host's turn: the command at the port is accepted and runs, or waits. -/
def hostTurn (s : State) : Host.Outcome State Fault Refusal :=
  match fetchCommand s with
  | some (i, s1) => exec i s1
  | none => .next s

/-- The step of the agent whose turn it is. -/
def takeTurn (t : Turn) (s : State) : Host.Outcome State Fault Refusal :=
  match t with
  | .framer => framerTurn s
  | .host => hostTurn s
  | .withdraw => .next (withdrawCommand s)
  | .peer b => .next (s.peerArrive b)
  | .time line => .next (timeTick line s)
  | .reset platformRxq => .next (applyReset platformRxq s)

/-- One step: the next turn, taken. -/
def step (s : State) : Host.Outcome State Fault Refusal :=
  takeTurn (nextTurn s).1 (nextTurn s).2

/-- The state in which the very next step handles the word `w` of a table row of `nbits` bits (log 12). A word the
decoder refuses leaves the state as it is. -/
def State.withFetchWord (s : State) (nbits w : Nat) : State :=
  match decodeTableWord nbits w with
  | some i => placeUnit i w s
  | none => s

end Sys2Proof.Machine
end

