-- ==== Sys2Proof/Machine/Ports.lean ====
section
/-! DEFINITION. What the outside sees of a state and does to it in one clock edge: the host's reads (spec 43 R177),
the response word (30 R99), the ports (44 R191) and the order of events on one edge (60 R220). The stream level is
the normative one; the ports carry it and add no behaviour (00 R2, 44 R191). -/

namespace Sys2Proof.Machine

/-- The response packed as `{val[31:0], key[15:0], tag, status[2:0]}` (R99). -/
def Response.word (r : Response) : BitVec 52 :=
  r.val ++ r.key ++ BitVec.ofBool r.tag.bit ++ r.status.code

/-- `busy`: PHASE is not IDLE (R191). -/
def busy (s : State) : Bool := s.phase != .idle

/-- `cmd_ready` with no transfer in progress: PHASE = IDLE (R191). At the stream level TxWrite leaves nothing to
transfer (R58); Clocked.cmdReady has the transfers. -/
def cmdReady (s : State) : Bool := s.phase == .idle

/-- `rx_count`: the availability count, saturating at RXCOUNT_W bits (R56, R191). -/
def rxCount (s : State) : Nat := min (rxAvail s) (2 ^ s.params.rxCountW - 1)

/-- What the host can read, at any time and with no side effect (R38, R177). -/
structure HostView where
  sync : Bool
  busy : Bool
  status : BitVec 3
  rxKey : Key
  rxTag : Bool
  rxVal : Value
  baud : BitVec 16
  deriving DecidableEq, Repr

/-- The host's reads. -/
def State.hostView (s : State) : HostView :=
  { sync := s.sync
    busy := Machine.busy s
    status := s.status.code
    rxKey := s.rxKey
    rxTag := s.rxTag.bit
    rxVal := s.rxVal
    baud := s.baud }

/-- The ports' values (R191): the block's outputs, with the transport's side `rx_data`, `rx_count` and, for the
optional wrapper, the level of the transmit line. -/
structure Ports where
  cmdReady : Bool
  rspValid : Bool
  rspStatus : BitVec 3
  rspKey : Key
  rspTag : Bool
  rspVal : Value
  sync : Bool
  busy : Bool
  txValid : Bool
  txData : Option Byte
  rxData : Option Byte
  rxCount : Nat
  rxPop : Bool
  cfgValid : Bool
  cfgBaud : BitVec 16
  txLine : Bool
  deriving DecidableEq, Repr

/-- The ports of a block at rest: no transfer in progress and no pulse. -/
def State.ports (s : State) : Ports :=
  { cmdReady := Machine.cmdReady s
    rspValid := false
    rspStatus := s.status.code
    rspKey := s.rxKey
    rspTag := s.rxTag.bit
    rspVal := s.rxVal
    sync := s.sync
    busy := Machine.busy s
    txValid := false
    txData := none
    rxData := s.rxq.head?
    rxCount := Machine.rxCount s
    rxPop := false
    cfgValid := false
    cfgBaud := s.baud
    txLine := Machine.txLine s }

/-- `rsp_valid`: an operation ended between the two states (R191). -/
def rspValid (before after : State) : Bool :=
  decide (before.rspLog.length < after.rspLog.length)

/-- `cfg_valid`: OPEN performed CONFIGURE between the two states (R191). Only an accepted OPEN leads from IDLE to
HS_SEND (R165). -/
def cfgValid (before after : State) : Bool :=
  before.phase == .idle && after.phase == .hsSend

/-- What is driven into the block at one clock edge (R191): `rst`, the command presented (`cmd_valid` with the four
fields), a byte completed by the transport, `tx_ready`, and the level of the wrapper's receive line. -/
structure EdgeInputs where
  rst : Bool
  cmd : Option CommandWord
  arrival : Option Byte
  txReady : Bool
  line : Bool
  deriving DecidableEq, Repr

/-- The turns of one edge in the order of R220: reset first; then the peer's append, a byte that the wrapper's line
completes on the tick included (R195); then the host's or the framer's step, which sees that byte. DESIGN CHOICE: the
tick stands with the appends, before the step (log 28). DESIGN CHOICE: reset overrides the step of the host or the framer
on its edge, while a byte that arrives on it is appended after the reset and the tick follows (R60: the framer cannot
refuse the byte; log 28). -/
def edgeTurns (e : EdgeInputs) (s : State) : List Turn :=
  (if e.rst then [.reset none] else []) ++ (e.arrival.map Turn.peer).toList ++ [.time e.line] ++
    (if e.rst then [] else [if s.phase = .idle then .host else .framer])

/-- The state at one edge of the stream level, where every step takes one edge: the port presents this edge's command
and nothing else, and the edge's turns come next. A command that is presented no longer is withdrawn (R165). -/
def State.clockEdge (e : EdgeInputs) (s : State) : State :=
  (s.setHostCmds e.cmd.toList).setTurns (edgeTurns e s)

end Sys2Proof.Machine
end

