-- ==== Sys2Proof/Safety.lean ====
section
/-! DEFINITION. The terms claims use: runs, the invariants of spec 10 R37, the bound on RXQ, payloads and the
premises of 70 R244. -/

namespace Sys2Proof.Machine

/-- `n` steps, stopping at the first that answers no next state. -/
def runFor : Nat → State → Host.Outcome State Fault Refusal
  | 0, s => .next s
  | n + 1, s =>
    match step s with
    | .next s' => runFor n s'
    | .fault f => .fault f
    | .refused r => .refused r

/-- R37 (b), (c), (d), (e for NO_MESSAGE), (f), (g); (a) and (h) hold by the types. The last clause is the
model's own reading: a session or an operation exists only after OPEN has configured the transport (R166; log
29). -/
structure Inv (s : State) : Prop where
  handshakeUnsynchronized : s.phase.inHandshake = true → s.sync = false
  waitSynchronized : s.phase = .rxWait → s.sync = true ∧ s.keyReg ≠ Config.keyNone
  tagIsParity : s.rxTag = Tag.ofKey s.rxKey
  noMessageZero : s.status = .noMessage → s.rxKey = 0 ∧ s.rxTag = .integer ∧ s.rxVal = 0
  integerExtended : s.rxTag = .integer → s.rxVal = resultOfInteger (integerOf s.rxVal)
  baudLegal : s.baud = 0 ∨ s.baud = Config.linkRate
  configured : (s.sync = true ∨ s.phase ≠ .idle) → s.baud = Config.linkRate

/-- RXQ never exceeds a bounded RX_DEPTH (R60, R198). -/
def rxqWithinDepth (s : State) : Bool :=
  match s.params.rxDepth with
  | none => true
  | some d => decide (s.rxq.length ≤ d)

/-- A payload: key and 32-bit value; the tag is the key's parity (R12, R90). -/
structure Payload where
  key : Key
  value : Value
  deriving DecidableEq, Repr

/-- The payload's frame (R81, R82). -/
def Payload.frame (p : Payload) : List Byte :=
  match Tag.ofKey p.key with
  | .integer => integerFrame p.key (integerOf p.value)
  | .float => floatFrame p.key p.value

/-- What a RECV delivers for the payload: the float pattern unchanged, the integer sign-extended (R134). -/
def Payload.delivered (p : Payload) : Value :=
  match Tag.ofKey p.key with
  | .integer => resultOfInteger (integerOf p.value)
  | .float => p.value

/-- The host command that sends the payload (R167, R168). -/
def Payload.sendCommand (p : Payload) : CommandWord :=
  match Tag.ofKey p.key with
  | .integer => encodeCommand (.sendI p.key p.value)
  | .float => encodeCommand (.sendF p.key p.value)

/-- The response to the RECV that delivers the payload (R99, R150, R151). -/
def Payload.response (p : Payload) : Response :=
  { val := p.delivered, key := p.key, tag := Tag.ofKey p.key, status := .ok }

/-- The bytes the peer appends in a list of turns, in order (R60). -/
def arrivals : List Turn → List Byte
  | [] => []
  | .peer b :: ts => b :: arrivals ts
  | .framer :: ts | .host :: ts | .withdraw :: ts | .time _ :: ts | .reset _ :: ts => arrivals ts

/-- No turn of the list is a reset. -/
def noReset : List Turn → Bool
  | [] => true
  | .reset _ :: _ => false
  | .framer :: ts | .host :: ts | .withdraw :: ts | .time _ :: ts | .peer _ :: ts => noReset ts

/-- Every byte that arrives is kept: unbounded RXQ and no wrapper that ignores the line (R244 NoFault). -/
def noFault (s : State) : Prop :=
  s.params.rxDepth = none ∧ s.params.uartWrapper = false

/-- A key in the Key range "(0, 65535]" (R23, R91, R134). -/
def Payload.wf (p : Payload) : Prop := p.key ≠ Config.keyNone

end Sys2Proof.Machine
end

