-- ==== Sys2Proof/Certificates/Slice0/Obligations.lean ====
section
/-! DEFINITION. The statements for the provers, from the numbered rules of spec/. Rules are named in each
docstring; "log n" is a choice of the model's, not the spec's. -/

open Sys2Proof Sys2Proof.Machine

/-! ### Encoding and decoding -/

/-- Rows of 30 R97 with R81 to R87, R90, R92, R95, R96: decoding a well-formed instruction's own bytes in its
context gives the instruction back, every operand at every value. -/
def Obligations.DecodeOfEncodeIsIdentity : Prop :=
  ∀ i : Instr, i.wellFormed = true → decode i.context (encode i) = .ok i

/-- Words written out from the spec's encodings (R81, R82, R90, R92, R96) and its vectors S1, S2, D3. -/
def Obligations.SpecWordsDecode : Prop :=
  decode .wireFrame [0x00, 0x00] = .ok .decKey0 ∧
  decode .wireFrame [0x00, 0x01] = .ok (.decInt 256) ∧
  decode .wireFrame [0x03, 0x00] = .ok (.decFlt 3) ∧
  decode .wireHandshake [0x24] = .ok .hsSentinel ∧
  decode .wireHandshake [0x41] = .ok (.hsOther 0x41) ∧
  decode .encode [0x02, 0x00, 0x2C, 0x01] = .ok (.encInt 2 300) ∧
  decode .encode [0x03, 0x00, 0x00, 0x00, 0xC0, 0x3F] = .ok (.encFlt 3 0x3FC00000) ∧
  decode .encode [0x24] = .ok .hsTx ∧
  decode .command [0x11, 0x00, 0x60, 0x09, 0, 0, 0] = .ok (.sendI 2 300) ∧
  decode .command [0x1D, 0x00, 0x00, 0x00, 0x00, 0xFE, 0x01] = .ok (.sendF 3 0x3FC00000) ∧
  decode .command [0x02, 0, 0, 0, 0, 0, 0] = .ok .recv ∧
  decode .command [0xFF, 0xFF, 0xFF, 0xFF, 0xFF, 0xFF, 0x07] = .ok .cmdReserved

/-- R84, R86, R87: fields are assembled least significant byte first, and assembly after splitting returns the
original field for every value of the field. -/
def Obligations.AssemblyInvertsSplitting : Prop :=
  (∀ b0 b1 : Byte, halfOfBytes b0 b1 = b1 ++ b0) ∧
  (∀ b0 b1 b2 b3 : Byte, wordOfBytes b0 b1 b2 b3 = b3 ++ b2 ++ b1 ++ b0) ∧
  (∀ v : BitVec 16, halfBytes v = [v.extractLsb' 0 8, v.extractLsb' 8 8] ∧
    halfOfBytes (v.extractLsb' 0 8) (v.extractLsb' 8 8) = v) ∧
  (∀ v : BitVec 32,
    wordBytes v = [v.extractLsb' 0 8, v.extractLsb' 8 8, v.extractLsb' 16 8, v.extractLsb' 24 8] ∧
    wordOfBytes (v.extractLsb' 0 8) (v.extractLsb' 8 8) (v.extractLsb' 16 8) (v.extractLsb' 24 8) = v)

/-- R90, R92, R97: the three wire-frame rows partition all keys, with priority for key 0; the two handshake rows
partition all bytes. -/
def Obligations.WireRowsPartition : Prop :=
  (∀ key : Key, decodeKey key =
    if key = 0 then .decKey0 else if key.getLsbD 0 = true then .decFlt key else .decInt key) ∧
  (∀ b : Byte, decodeHandshakeByte b = if b = 0x24 then .hsSentinel else .hsOther b)

/-- R95, R96: the five command rows by their match and mask on CW[2:0]; key and val from CW[18:3] and CW[50:19];
no other bit of the word matters. -/
def Obligations.CommandRowsByMatchAndMask : Prop :=
  ∀ cw : CommandWord,
    (cw.extractLsb' 0 3 &&& 0b011 = 0b000 → decodeCommand cw = .openLink) ∧
    (cw.extractLsb' 0 3 &&& 0b111 = 0b001 →
      decodeCommand cw = .sendI (cw.extractLsb' 3 16) (cw.extractLsb' 19 32)) ∧
    (cw.extractLsb' 0 3 &&& 0b111 = 0b101 →
      decodeCommand cw = .sendF (cw.extractLsb' 3 16) (cw.extractLsb' 19 32)) ∧
    (cw.extractLsb' 0 3 &&& 0b011 = 0b010 → decodeCommand cw = .recv) ∧
    (cw.extractLsb' 0 3 &&& 0b011 = 0b011 → decodeCommand cw = .cmdReserved)

/-! ### A step runs the decoded instruction -/

/-- R165, R10: on the host's turn in IDLE, the step is exec of the command at the port, taken from it; the same
word in bytes decodes to the same instruction. The turn list is the model's (log 2, 3). -/
def Obligations.HostTurnRunsPortCommand : Prop :=
  ∀ (s : State) (ts : List Turn) (cw : CommandWord) (cs : List CommandWord) (i : Instr),
    s.turns = .host :: ts → s.phase = .idle → s.hostCmds = cw :: cs →
    decode .command (commandBytes cw) = .ok i →
      step s = exec i { s with turns := ts, hostCmds := cs }

/-- R22, R97, R111 to R114, R150, R151: on the framer's turn the step is exec of the unit of the phase: HS.TX in
HS_SEND, the row of the byte at the head of RXQ in HS_SCAN, the row of the key in KEYREG in RX_WAIT. -/
def Obligations.FramerTurnRunsItsUnit : Prop :=
  ∀ (s : State) (ts : List Turn), s.turns = .framer :: ts →
    (s.phase = .hsSend → step s = exec .hsTx { s with turns := ts }) ∧
    (∀ b q i, s.phase = .hsScan → s.rxq = b :: q → decode .wireHandshake [b] = .ok i →
      step s = exec i { s with turns := ts }) ∧
    (∀ i, s.phase = .rxWait → s.keyReg ≠ 0 → decode .wireFrame (halfBytes s.keyReg) = .ok i →
      step s = exec i { s with turns := ts })

/-- R147 to R149, R169: RECV consumes the key's two bytes and, in the same step, runs the row they decode to. -/
def Obligations.RecvRunsTheKeysRow : Prop :=
  ∀ (s : State) (b0 b1 : Byte) (q : List Byte) (i : Instr),
    s.phase = .idle → s.sync = true → s.rxq = b0 :: b1 :: q → decode .wireFrame [b0, b1] = .ok i →
      exec .recv s = exec i { s with rxq := q }

/-! ### ESTABLISH -/

/-- R111. -/
def Obligations.HsTxSendsOneSentinel : Prop :=
  ∀ s : State, s.phase = .hsSend →
    exec .hsTx s = .next { s with
      txq := s.txq ++ [0x24]
      hsCount := BitVec.ofNat 16 (min (s.hsCount.toNat + 1) (2 ^ 16 - 1))
      phase := .hsScan }

/-- R112, with HS_INTERVAL_TICKS = ceil(100 ms x F_CLK) of R7 (log 15); the list of turns is the model's (log 2). -/
def Obligations.EmptyScanStartsTheWait : Prop :=
  ∀ (s : State) (ts : List Turn), s.turns = .framer :: ts → s.phase = .hsScan → s.rxq = [] →
    step s = .next { s with turns := ts, hsTimer := (100 * s.params.fClk + 999) / 1000, phase := .hsWait }

/-- R113. -/
def Obligations.SentinelCompletesOpen : Prop :=
  ∀ (s : State) (q : List Byte), s.phase = .hsScan → s.rxq = 0x24 :: q →
    exec .hsSentinel s = .next { s with
      rxq := q
      sync := true
      status := .ok
      phase := .idle
      rspLog := s.rspLog ++ [{ val := s.rxVal, key := s.rxKey, tag := s.rxTag, status := .ok }] }

/-- R114. -/
def Obligations.OtherByteIsDropped : Prop :=
  ∀ (s : State) (b : Byte) (q : List Byte), s.phase = .hsScan → s.rxq = b :: q → b ≠ 0x24 →
    exec (.hsOther b) s = .next { s with rxq := q }

/-- R115, R116: in HS_WAIT the framer waits for HSTIMER = 0, then transmits again or, if a timeout is configured
and reached, raises HANDSHAKE_TIMEOUT; a tick counts HSTIMER down, with the UART wrapper too, whose line may then
move and deliver a byte. The turns are the model's (log 2). -/
def Obligations.WaitEndsByRetransmissionOrTimeout : Prop :=
  (∀ (s : State) (ts : List Turn), s.turns = .framer :: ts → s.phase = .hsWait →
    (s.hsTimer ≠ 0 → step s = .next { s with turns := ts }) ∧
    (s.hsTimer = 0 → (s.params.hsTimeoutCount = 0 ∨ s.hsCount.toNat < s.params.hsTimeoutCount) →
      step s = .next { s with turns := ts, phase := .hsSend }) ∧
    (s.hsTimer = 0 → s.params.hsTimeoutCount ≠ 0 → s.params.hsTimeoutCount ≤ s.hsCount.toNat →
      step s = .next { s with
        turns := ts
        status := .handshakeTimeout
        phase := .idle
        rspLog := s.rspLog ++
          [{ val := s.rxVal, key := s.rxKey, tag := s.rxTag, status := .handshakeTimeout }] })) ∧
  (∀ (s : State) (ts : List Turn) (line : Bool), s.turns = .time line :: ts → s.params.uartWrapper = false →
    (s.phase = .hsWait → step s = .next { s with turns := ts, hsTimer := s.hsTimer - 1 }) ∧
    (s.phase ≠ .hsWait → step s = .next { s with turns := ts })) ∧
  (∀ (s : State) (ts : List Turn) (line : Bool), s.turns = .time line :: ts →
    ∃ u q, step s = .next { s with
        turns := ts
        hsTimer := if s.phase = .hsWait then s.hsTimer - 1 else s.hsTimer
        uart := u
        rxq := q } ∧
      (q = s.rxq ∨ ∃ b, q = s.rxq ++ [b]))

/-! ### ENCODE -/

/-- R131, R132, R133: the frame of a payload, or the parity error and no bytes. -/
def Obligations.EncodeGivesTheFrame : Prop :=
  ∀ (k : Key) (v : Value),
    (k.getLsbD 0 = false → encodePayload k .integer v =
      .ok [k.extractLsb' 0 8, k.extractLsb' 8 8, v.extractLsb' 0 8, v.extractLsb' 8 8]) ∧
    (k.getLsbD 0 = true → encodePayload k .float v =
      .ok [k.extractLsb' 0 8, k.extractLsb' 8 8, v.extractLsb' 0 8, v.extractLsb' 8 8, v.extractLsb' 16 8,
        v.extractLsb' 24 8]) ∧
    (k.getLsbD 0 = true → encodePayload k .integer v = .error .invalidKeyParity) ∧
    (k.getLsbD 0 = false → encodePayload k .float v = .error .invalidKeyParity)

/-- R135: 4 bytes for an integer, 6 for a float, and two different payloads never give the same bytes once
v[31:16] is disregarded for Integer. -/
def Obligations.EncodeIsInjective : Prop :=
  ∀ (k k' : Key) (t t' : Tag) (v v' : Value) (bs : List Byte),
    encodePayload k t v = .ok bs →
      bs.length = (match t with | .integer => 4 | .float => 6) ∧
      (encodePayload k' t' v' = .ok bs →
        k' = k ∧ t' = t ∧
        (match t with
          | .integer => v'.extractLsb' 0 16 = v.extractLsb' 0 16
          | .float => v' = v))

/-- The encode context's units append their frame to TXQ and change nothing else (R97, R131, R132: what SEND
emits); an operand of the wrong parity raises the error of R133. That an emitted unit's effect is its TxWrite is
the model's choice (log 7). -/
def Obligations.FrameUnitsAppendTheirBytes : Prop :=
  ∀ s : State,
    (∀ (k : Key) (v : IntPattern), k.getLsbD 0 = false →
      exec (.encInt k v) s = .next { s with
        txq := s.txq ++ [k.extractLsb' 0 8, k.extractLsb' 8 8, v.extractLsb' 0 8, v.extractLsb' 8 8] }) ∧
    (∀ (k : Key) (v : Value), k.getLsbD 0 = true →
      exec (.encFlt k v) s = .next { s with
        txq := s.txq ++ [k.extractLsb' 0 8, k.extractLsb' 8 8, v.extractLsb' 0 8, v.extractLsb' 8 8,
          v.extractLsb' 16 8, v.extractLsb' 24 8] }) ∧
    (∀ (k : Key) (v : IntPattern) (w : Value),
      (k.getLsbD 0 = true → exec (.encInt k v) s = .next (s.raise .invalidKeyParity)) ∧
      (k.getLsbD 0 = false → exec (.encFlt k w) s = .next (s.raise .invalidKeyParity)))

/-! ### DECODE -/

/-- R148: key 0 gives NoMessage; from RECV, exactly the two key bytes have been consumed. -/
def Obligations.KeyZeroIsNoMessage : Prop :=
  ∀ s : State, s.phase = .idle → s.sync = true →
    exec .decKey0 s = .next { s with
      rxKey := 0
      rxTag := .integer
      rxVal := 0
      status := .noMessage
      phase := .idle
      rspLog := s.rspLog ++ [{ val := 0, key := 0, tag := .integer, status := .noMessage }] } ∧
    (∀ q : List Byte, s.rxq = 0 :: 0 :: q →
      exec .recv s = .next { s with
        rxq := q
        rxKey := 0
        rxTag := .integer
        rxVal := 0
        status := .noMessage
        phase := .idle
        rspLog := s.rspLog ++ [{ val := 0, key := 0, tag := .integer, status := .noMessage }] })

/-- R149: a nonzero key, even or odd, goes to KEYREG and the operation goes on in RX_WAIT; neither the result
latches nor STATUS change. -/
def Obligations.NonzeroKeyIsRecognized : Prop :=
  ∀ (s : State) (k : Key), s.phase = .idle → s.sync = true →
    (k ≠ 0 → k.getLsbD 0 = false → exec (.decInt k) s = .next { s with keyReg := k, phase := .rxWait }) ∧
    (k.getLsbD 0 = true → exec (.decFlt k) s = .next { s with keyReg := k, phase := .rxWait })

/-- R150. -/
def Obligations.IntegerValueIsDelivered : Prop :=
  ∀ (s : State) (k : Key) (b2 b3 : Byte) (q : List Byte),
    s.phase = .rxWait → s.keyReg = k → k.getLsbD 0 = false → s.rxq = b2 :: b3 :: q →
      exec (.decInt k) s = .next { s with
        rxq := q
        rxKey := k
        rxTag := .integer
        rxVal := (b3 ++ b2 : BitVec 16).signExtend 32
        status := .ok
        phase := .idle
        rspLog := s.rspLog ++
          [{ val := (b3 ++ b2 : BitVec 16).signExtend 32, key := k, tag := .integer, status := .ok }] }

/-- R151. -/
def Obligations.FloatValueIsDelivered : Prop :=
  ∀ (s : State) (k : Key) (b2 b3 b4 b5 : Byte) (q : List Byte),
    s.phase = .rxWait → s.keyReg = k → k.getLsbD 0 = true → s.rxq = b2 :: b3 :: b4 :: b5 :: q →
      exec (.decFlt k) s = .next { s with
        rxq := q
        rxKey := k
        rxTag := .float
        rxVal := b5 ++ b4 ++ b3 ++ b2
        status := .ok
        phase := .idle
        rspLog := s.rspLog ++ [{ val := b5 ++ b4 ++ b3 ++ b2, key := k, tag := .float, status := .ok }] }

/-- R152: while value bytes are missing the framer's turn consumes nothing and changes nothing. -/
def Obligations.ValueStageHolds : Prop :=
  ∀ (s : State) (ts : List Turn), s.turns = .framer :: ts → s.phase = .rxWait →
    s.rxq.length < (if s.keyReg.getLsbD 0 = true then 4 else 2) →
      step s = .next { s with turns := ts }

/-- R146: with fewer than two bytes buffered RECV reports NoMessage and consumes nothing. -/
def Obligations.RecvWithoutAWholeKey : Prop :=
  ∀ s : State, s.phase = .idle → s.sync = true → s.rxq.length < 2 →
    exec .recv s = .next { s with
      rxKey := 0
      rxTag := .integer
      rxVal := 0
      status := .noMessage
      phase := .idle
      rspLog := s.rspLog ++ [{ val := 0, key := 0, tag := .integer, status := .noMessage }] }

/-- R147, R149, R169: a RECV that reads a nonzero key takes exactly its two bytes and waits for the value. -/
def Obligations.RecvTakesTheKey : Prop :=
  ∀ (s : State) (b0 b1 : Byte) (q : List Byte),
    s.phase = .idle → s.sync = true → s.rxq = b0 :: b1 :: q → (b1 ++ b0 : Key) ≠ 0 →
      exec .recv s = .next { s with rxq := q, keyReg := b1 ++ b0, phase := .rxWait }

/-! ### The host commands -/

/-- R166 (the accepting step), R59: OPEN in either session mode. -/
def Obligations.OpenStartsTheHandshake : Prop :=
  ∀ s : State, s.phase = .idle →
    exec .openLink s = .next { s with sync := false, baud := 19200, hsCount := 0, phase := .hsSend }

/-- R167, with every outcome in the order of its checks. -/
def Obligations.SendIntegerOutcomes : Prop :=
  ∀ (s : State) (k : Key) (v : Value), s.phase = .idle →
    (s.sync = false →
      exec (.sendI k v) s = .next (({ s with txKey := k, txTag := .integer, txVal := v }).raise .notSynchronized)) ∧
    (s.sync = true → k.getLsbD 0 = true →
      exec (.sendI k v) s = .next (({ s with txKey := k, txTag := .integer, txVal := v }).raise .invalidKeyParity)) ∧
    (s.sync = true → k = 0 →
      exec (.sendI k v) s = .next (({ s with txKey := k, txTag := .integer, txVal := v }).raise .keyReserved)) ∧
    (s.sync = true → k.getLsbD 0 = false → k ≠ 0 →
      exec (.sendI k v) s = .next { s with
        txKey := k
        txTag := .integer
        txVal := v
        txq := s.txq ++ [k.extractLsb' 0 8, k.extractLsb' 8 8, v.extractLsb' 0 8, v.extractLsb' 8 8]
        status := .ok
        phase := .idle
        rspLog := s.rspLog ++ [{ val := s.rxVal, key := s.rxKey, tag := s.rxTag, status := .ok }] })

/-- R168, with every outcome in the order of its checks; an even key, 0 included, is a parity error. -/
def Obligations.SendFloatOutcomes : Prop :=
  ∀ (s : State) (k : Key) (v : Value), s.phase = .idle →
    (s.sync = false →
      exec (.sendF k v) s = .next (({ s with txKey := k, txTag := .float, txVal := v }).raise .notSynchronized)) ∧
    (s.sync = true → k.getLsbD 0 = false →
      exec (.sendF k v) s = .next (({ s with txKey := k, txTag := .float, txVal := v }).raise .invalidKeyParity)) ∧
    (s.sync = true → k.getLsbD 0 = true →
      exec (.sendF k v) s = .next { s with
        txKey := k
        txTag := .float
        txVal := v
        txq := s.txq ++ [k.extractLsb' 0 8, k.extractLsb' 8 8, v.extractLsb' 0 8, v.extractLsb' 8 8,
          v.extractLsb' 16 8, v.extractLsb' 24 8]
        status := .ok
        phase := .idle
        rspLog := s.rspLog ++ [{ val := s.rxVal, key := s.rxKey, tag := s.rxTag, status := .ok }] })

/-- R222: raising a condition writes STATUS, returns PHASE to IDLE, presents a response and changes nothing else. -/
def Obligations.RaiseEndsTheOperation : Prop :=
  ∀ (s : State) (c : ResultCode),
    s.raise c = { s with
      status := c
      phase := .idle
      rspLog := s.rspLog ++ [{ val := s.rxVal, key := s.rxKey, tag := s.rxTag, status := c }] }

/-- R170: SEND.I, SEND.F and RECV with SYNC = 0 end with NOT_SYNCHRONIZED; neither stream and no result latch
changes; a send's operand latches are loaded all the same. -/
def Obligations.UnsynchronizedCommandsAreRefused : Prop :=
  ∀ (s : State) (k : Key) (v : Value), s.phase = .idle → s.sync = false →
    exec .recv s = .next { s with
      status := .notSynchronized
      phase := .idle
      rspLog := s.rspLog ++ [{ val := s.rxVal, key := s.rxKey, tag := s.rxTag, status := .notSynchronized }] } ∧
    exec (.sendI k v) s = .next { s with
      txKey := k
      txTag := .integer
      txVal := v
      status := .notSynchronized
      phase := .idle
      rspLog := s.rspLog ++ [{ val := s.rxVal, key := s.rxKey, tag := s.rxTag, status := .notSynchronized }] } ∧
    exec (.sendF k v) s = .next { s with
      txKey := k
      txTag := .float
      txVal := v
      status := .notSynchronized
      phase := .idle
      rspLog := s.rspLog ++ [{ val := s.rxVal, key := s.rxKey, tag := s.rxTag, status := .notSynchronized }] }

/-- R173: the reserved opcode ends with ILLEGAL_OP in either session mode and changes nothing else. -/
def Obligations.ReservedOpcodeIsIllegal : Prop :=
  ∀ s : State, s.phase = .idle →
    exec .cmdReserved s = .next { s with
      status := .illegalOp
      phase := .idle
      rspLog := s.rspLog ++ [{ val := s.rxVal, key := s.rxKey, tag := s.rxTag, status := .illegalOp }] }

/-- R165: while PHASE is not IDLE no command is accepted and none is dropped: it waits at the port. That exec of
a command that is not accepted leaves the state as it is, is the model's reading (log 6). -/
def Obligations.CommandsWaitWhileBusy : Prop :=
  ∀ s : State, s.phase ≠ .idle →
    (∀ i : Instr, i.context = .command → exec i s = .next s) ∧
    (∀ ts : List Turn, s.turns = .host :: ts → step s = .next { s with turns := ts })

/-! ### The other agents -/

/-- R60, R192, R198: the peer's byte goes to the tail of RXQ; it is lost silently at a full buffer, or with the
UART wrapper while BAUD = 0. -/
def Obligations.PeerByteIsAppendedOrLost : Prop :=
  ∀ (s : State) (ts : List Turn) (b : Byte), s.turns = .peer b :: ts →
    ((s.params.uartWrapper = false ∨ s.baud ≠ 0) →
      (s.params.rxDepth = none → step s = .next { s with turns := ts, rxq := s.rxq ++ [b] }) ∧
      (∀ d, s.params.rxDepth = some d →
        (s.rxq.length < d → step s = .next { s with turns := ts, rxq := s.rxq ++ [b] }) ∧
        (d ≤ s.rxq.length → step s = .next { s with turns := ts }))) ∧
    (s.params.uartWrapper = true → s.baud = 0 → step s = .next { s with turns := ts })

/-- R240, with R200 for the wrapper and for a platform that replaces the inbound buffer: every reset turn, at any
moment, clears the registers; TXQ stays, and so does RXQ unless the platform hands over another; no response; a byte
being shifted in or out is abandoned. The reset turn and the wrapper's registers are the model's (log 2, 17, 19, 21). -/
def Obligations.ResetClearsEveryRegister : Prop :=
  ∀ (s : State) (ts : List Turn) (platformRxq : Option (List Byte)), s.turns = .reset platformRxq :: ts →
    ∃ t, step s = .next t ∧
      t.sync = false ∧ t.phase = .idle ∧ t.txKey = 0 ∧ t.txTag = .integer ∧ t.txVal = 0 ∧ t.rxKey = 0 ∧
      t.rxTag = .integer ∧ t.rxVal = 0 ∧ t.status = .ok ∧ t.keyReg = 0 ∧ t.hsCount = 0 ∧ t.hsTimer = 0 ∧
      t.baud = 0 ∧ t.rxq = platformRxq.getD s.rxq ∧ t.txq = s.txq ∧ t.rspLog = s.rspLog ∧
      t.params = s.params ∧ t.hostCmds = s.hostCmds ∧ t.turns = ts ∧
      t.uart.txShift = [] ∧ t.uart.rxBits = none

/-- R20, R240: what the state right after reset holds, as far as the spec gives it. -/
def Obligations.ResetStateHasTheSpecsValues : Prop :=
  State.reset.sync = false ∧ State.reset.phase.code = 0 ∧ State.reset.txKey = 0 ∧ State.reset.txTag.bit = false ∧
  State.reset.txVal = 0 ∧ State.reset.rxKey = 0 ∧ State.reset.rxTag.bit = false ∧ State.reset.rxVal = 0 ∧
  State.reset.status.code = 0 ∧ State.reset.keyReg = 0 ∧ State.reset.hsCount = 0 ∧ State.reset.hsTimer = 0 ∧
  State.reset.baud = 0 ∧ State.reset.txq = []

/-! ### Whole-machine rules -/

/-- R37 for the state after reset, in the model's reading: Inv adds to R37 that a session or an operation has BAUD
19200, and states R37 (e) for NO_MESSAGE only (log 29). -/
def Obligations.ResetSatisfiesTheInvariants : Prop := Inv State.reset

/-- R37, in the model's reading of log 29 (a session or an operation has BAUD 19200; (e) for NO_MESSAGE only): every
step keeps the invariants, from every state that has them. -/
def Obligations.StepKeepsTheInvariants : Prop :=
  ∀ s t : State, Inv s → step s = .next t → Inv t

/-- R177 ("every combination has a defined outcome"), R93, R223: no step stops the machine, and no instruction does.
That an instruction whose step is not enabled answers a next state, the same one, is the model's reading (log 6), as is
that there is no fault at all (log 23); the rules speak of commands and bytes where they are accepted. -/
def Obligations.NothingStopsTheMachine : Prop :=
  (∀ (i : Instr) (s : State), ∃ t, exec i s = .next t) ∧ (∀ s : State, ∃ t, step s = .next t)

/-- R60, R196, R198: no step takes RXQ over a bounded RX_DEPTH, unless a platform itself replaces the buffer. -/
def Obligations.RxqStaysWithinItsDepth : Prop :=
  ∀ s t : State, rxqWithinDepth s = true → (∀ q, s.turns.head? ≠ some (.reset (some q))) → step s = .next t →
    rxqWithinDepth t = true

/-- R21: SYNC changes in exactly three places: set by the handshake step that consumes a sentinel, cleared by OPEN
and by reset. -/
def Obligations.SyncIsWrittenInThreePlaces : Prop :=
  ∀ s t : State, step s = .next t → t.sync ≠ s.sync →
    (t.sync = true ∧ s.phase = .hsScan ∧ s.rxq = 0x24 :: t.rxq ∧ t.phase = .idle ∧ t.status = .ok) ∨
    (t.sync = false ∧ s.phase = .idle ∧ t.phase = .hsSend ∧
      ∃ cw, s.hostCmds = cw :: t.hostCmds ∧ decodeCommand cw = .openLink) ∨
    (t.sync = false ∧ ∃ q, s.turns = .reset q :: t.turns)

/-- R55, R58, R80: a step adds nothing to TXQ but one whole unit: the sentinel in HS_SEND, or the frame of a
nonzero key in a synchronized session. -/
def Obligations.TxqGrowsByWholeUnits : Prop :=
  ∀ s t : State, step s = .next t →
    t.txq = s.txq ∨
    (s.phase = .hsSend ∧ t.txq = s.txq ++ [0x24]) ∨
    (s.phase = .idle ∧ s.sync = true ∧ ∃ (k : Key) (v : IntPattern), k ≠ 0 ∧ k.getLsbD 0 = false ∧
      t.txq = s.txq ++ integerFrame k v) ∨
    (s.phase = .idle ∧ s.sync = true ∧ ∃ (k : Key) (v : Value), k.getLsbD 0 = true ∧
      t.txq = s.txq ++ floatFrame k v)

/-- R34, R55, R57, R64: a step takes 1, 2 or 4 bytes from the head of RXQ, or adds one at its tail, or leaves it;
only a platform's reset replaces it (R200). -/
def Obligations.RxqIsFirstInFirstOut : Prop :=
  ∀ s t : State, step s = .next t →
    (∃ n, n ∈ [0, 1, 2, 4] ∧ n ≤ s.rxq.length ∧ t.rxq = s.rxq.drop n) ∨
    (∃ b, t.rxq = s.rxq ++ [b]) ∨
    (∃ q, s.turns = .reset (some q) :: t.turns ∧ t.rxq = q)

/-- R26, R27, R28, R153, with R146, R148, R150, R151: outside reset the result latches change only in a step that
completes a RECV, all together: to NoMessage's zeros when a RECV taken from the port finds no whole key or key 0, or to
the key of KEYREG, its own parity as tag and the value assembled from the bytes removed from RXQ. -/
def Obligations.ResultsAreNeverPartial : Prop :=
  ∀ s t : State, step s = .next t →
    (t.rxKey = s.rxKey ∧ t.rxTag = s.rxTag ∧ t.rxVal = s.rxVal) ∨
    (∃ q, s.turns = .reset q :: t.turns) ∨
    (s.phase = .idle ∧ s.sync = true ∧ (∃ cw, s.hostCmds = cw :: t.hostCmds ∧ decodeCommand cw = .recv) ∧
      ((s.rxq.length < 2 ∧ t.rxq = s.rxq) ∨ s.rxq = 0 :: 0 :: t.rxq) ∧
      t.phase = .idle ∧ t.status = .noMessage ∧ t.rxKey = 0 ∧ t.rxTag = .integer ∧ t.rxVal = 0) ∨
    (s.phase = .rxWait ∧ t.phase = .idle ∧ t.status = .ok ∧ t.rxKey = s.keyReg ∧
      ((s.keyReg.getLsbD 0 = false ∧ t.rxTag = .integer ∧
          ∃ b2 b3, s.rxq = b2 :: b3 :: t.rxq ∧ t.rxVal = (b3 ++ b2 : BitVec 16).signExtend 32) ∨
        (s.keyReg.getLsbD 0 = true ∧ t.rxTag = .float ∧
          ∃ b2 b3 b4 b5, s.rxq = b2 :: b3 :: b4 :: b5 :: t.rxq ∧ t.rxVal = b5 ++ b4 ++ b3 ++ b2)))

/-- R23, R24, R25: outside reset the operand latches change only when a send is accepted, to its own fields; and a
send taken from the port in IDLE loads its fields whatever its outcome (a withdrawal takes it unaccepted, R165). -/
def Obligations.OperandLatchesAreTheLastSends : Prop :=
  ∀ s t : State, step s = .next t →
    ((t.txKey = s.txKey ∧ t.txTag = s.txTag ∧ t.txVal = s.txVal) ∨
      (∃ q, s.turns = .reset q :: t.turns) ∨
      (s.phase = .idle ∧ ∃ cw k v, s.hostCmds = cw :: t.hostCmds ∧
        ((decodeCommand cw = .sendI k v ∧ t.txKey = k ∧ t.txTag = .integer ∧ t.txVal = v) ∨
         (decodeCommand cw = .sendF k v ∧ t.txKey = k ∧ t.txTag = .float ∧ t.txVal = v)))) ∧
    (∀ cw k v, s.phase = .idle → s.turns.head? ≠ some .withdraw → s.hostCmds = cw :: t.hostCmds →
      (decodeCommand cw = .sendI k v → t.txKey = k ∧ t.txTag = .integer ∧ t.txVal = v) ∧
      (decodeCommand cw = .sendF k v → t.txKey = k ∧ t.txTag = .float ∧ t.txVal = v))

/-- R30, R31, R32, R33: outside reset, what writes KEYREG, HSCOUNT, HSTIMER and BAUD. -/
def Obligations.HiddenRegistersHaveTheirWriters : Prop :=
  ∀ s t : State, step s = .next t → (∀ q, s.turns.head? ≠ some (.reset q)) →
    (t.keyReg = s.keyReg ∨
      (s.phase = .idle ∧ t.phase = .rxWait ∧ t.keyReg ≠ 0 ∧
        ∃ b0 b1, s.rxq = b0 :: b1 :: t.rxq ∧ t.keyReg = b1 ++ b0)) ∧
    (t.hsCount = s.hsCount ∨ (s.phase = .idle ∧ t.phase = .hsSend ∧ t.hsCount = 0) ∨
      (s.phase = .hsSend ∧ t.phase = .hsScan ∧ t.hsCount.toNat = s.hsCount.toNat + 1)) ∧
    (t.hsTimer = s.hsTimer ∨
      (s.phase = .hsScan ∧ t.phase = .hsWait ∧ t.hsTimer = (100 * s.params.fClk + 999) / 1000) ∨
      (s.phase = .hsWait ∧ t.phase = .hsWait ∧ t.hsTimer + 1 = s.hsTimer)) ∧
    (t.baud = s.baud ∨ (s.phase = .idle ∧ t.phase = .hsSend ∧ t.baud = 19200))

/-- R29, R99, R222, R240: STATUS changes only in the step that ends an operation, which presents one response with
the code and the latches of that moment; a reset presents none; and outside reset every end, a step from another phase
to IDLE or one that takes a command and stays in IDLE, presents exactly one (a withdrawal takes a command unaccepted,
R165). The list of responses is the model's (log 4). -/
def Obligations.EveryEndPresentsOneResponse : Prop :=
  ∀ s t : State, step s = .next t →
    ((t.rspLog = s.rspLog ∧ t.status = s.status) ∨
      (t.phase = .idle ∧
        t.rspLog = s.rspLog ++ [{ val := t.rxVal, key := t.rxKey, tag := t.rxTag, status := t.status }]) ∨
      (t.rspLog = s.rspLog ∧ ∃ q, s.turns = .reset q :: t.turns)) ∧
    ((∀ q, s.turns.head? ≠ some (.reset q)) → s.turns.head? ≠ some .withdraw → t.phase = .idle →
      (s.phase ≠ .idle ∨ t.hostCmds ≠ s.hostCmds) →
        t.rspLog = s.rspLog ++ [{ val := t.rxVal, key := t.rxKey, tag := t.rxTag, status := t.status }])

/-- R165: the sequencer's transitions, in full. -/
def Obligations.SequencerTransitions : Prop :=
  ∀ s t : State, step s = .next t → t.phase ≠ s.phase →
    (s.phase = .idle ∧ t.phase = .hsSend ∧ ∃ cw, s.hostCmds = cw :: t.hostCmds ∧ decodeCommand cw = .openLink) ∨
    (s.phase = .idle ∧ t.phase = .rxWait ∧ s.sync = true ∧
      (∃ cw, s.hostCmds = cw :: t.hostCmds ∧ decodeCommand cw = .recv) ∧
      ∃ b0 b1, s.rxq = b0 :: b1 :: t.rxq ∧ t.keyReg = b1 ++ b0 ∧ t.keyReg ≠ 0) ∨
    (s.phase = .hsSend ∧ t.phase = .hsScan ∧ t.txq = s.txq ++ [0x24]) ∨
    (s.phase = .hsScan ∧ t.phase = .hsWait ∧ s.rxq = []) ∨
    (s.phase = .hsScan ∧ t.phase = .idle ∧ s.rxq = 0x24 :: t.rxq) ∨
    (s.phase = .hsWait ∧ t.phase = .hsSend ∧ s.hsTimer = 0 ∧
      (s.params.hsTimeoutCount = 0 ∨ s.hsCount.toNat < s.params.hsTimeoutCount)) ∨
    (s.phase = .hsWait ∧ t.phase = .idle ∧ s.hsTimer = 0 ∧ t.status = .handshakeTimeout ∧
      s.params.hsTimeoutCount ≠ 0 ∧ s.params.hsTimeoutCount ≤ s.hsCount.toNat) ∨
    (s.phase = .rxWait ∧ t.phase = .idle ∧ t.status = .ok ∧
      (if s.keyReg.getLsbD 0 = true then 4 else 2) ≤ s.rxq.length) ∨
    (t.phase = .idle ∧ ∃ q, s.turns = .reset q :: t.turns)

/-- R36(c), D5: no later behaviour depends on the result latches, STATUS or the responses given: two states that
differ only in those go through the same run of steps and still differ only in those. -/
def Obligations.ResultsDoNotInfluenceBehaviour : Prop :=
  ∀ (n : Nat) (s t s' : State),
    t = { s with rxKey := t.rxKey, rxTag := t.rxTag, rxVal := t.rxVal, status := t.status, rspLog := t.rspLog } →
    runFor n s = .next s' →
      ∃ t', runFor n t = .next t' ∧
        t' = { s' with
          rxKey := t'.rxKey, rxTag := t'.rxTag, rxVal := t'.rxVal, status := t'.status, rspLog := t'.rspLog }

/-! ### Runs -/

/-- R117: if a handshake in progress ends with SYNC = 1 while bytes arrive in any interleaving, the bytes before the
first sentinel were dropped, exactly the sentinel was consumed, everything behind it is in RXQ, and TXQ has gained
sentinels only, at least one from HS_SEND. The bytes that came into RXQ are all the peer's on a chip that loses none,
some of them in order where RXQ is bounded, and those of the line too with the UART wrapper. -/
def Obligations.HandshakeConsumesUpToTheFirstSentinel : Prop :=
  ∀ s t : State, s.phase.inHandshake = true → s.sync = false → s.hostCmds = [] → noReset s.turns = true →
    runFor s.turns.length s = .next t → t.sync = true →
      t.phase = .idle ∧ t.status = .ok ∧
      ∃ (arrived dropped : List Byte) (k : Nat),
        (noFault s → arrived = arrivals s.turns) ∧
        (s.params.uartWrapper = false → arrived.Sublist (arrivals s.turns)) ∧
        (0x24 : Byte) ∉ dropped ∧
        s.rxq ++ arrived = dropped ++ 0x24 :: t.rxq ∧
        t.txq = s.txq ++ List.replicate k 0x24 ∧
        (s.phase = .hsSend → 1 ≤ k)

/-- R119, with the base design's HS_TIMEOUT_COUNT = 0: while no sentinel arrives the handshake runs for ever,
gives no response and keeps its status. -/
def Obligations.HandshakeWithoutSentinelNeverEnds : Prop :=
  ∀ (n : Nat) (s : State), s.phase.inHandshake = true → s.params.hsTimeoutCount = 0 →
    s.params.uartWrapper = false → s.turns = [] → (0x24 : Byte) ∉ s.rxq →
      ∃ t, runFor n s = .next t ∧ t.phase.inHandshake = true ∧ t.sync = s.sync ∧ t.status = s.status ∧
        t.rspLog = s.rspLog ∧ t.hostCmds = s.hostCmds

/-- R116: with HS_TIMEOUT_COUNT = N and no inbound byte, the handshake gives up after N sentinels and N full
intervals, in N turns of the loop. -/
def Obligations.HandshakeTimesOutAfterNSentinels : Prop :=
  ∀ (N : Nat) (s : State), 1 ≤ N → N < 2 ^ 16 → s.params.hsTimeoutCount = N → s.params.uartWrapper = false →
    s.phase = .hsSend → s.hsCount = 0 → s.rxq = [] → s.turns = [] →
      ∃ t, runFor (N * (hsIntervalTicks s.params + 3)) s = .next t ∧
        t.status = .handshakeTimeout ∧ t.phase = .idle ∧ t.sync = s.sync ∧ t.hsCount.toNat = N ∧
        t.txq = s.txq ++ List.replicate N 0x24 ∧
        t.rspLog = s.rspLog ++
          [{ val := s.rxVal, key := s.rxKey, tag := s.rxTag, status := .handshakeTimeout }]

/-- R134: decoding the bytes of ENCODE(k, k[0], v) from a stream that holds exactly those bytes yields the payload
and leaves the stream empty; for k = 0 the property fails: NoMessage, and the value bytes stay. -/
def Obligations.EncodeThenDecodeRoundTrip : Prop :=
  ∀ (s : State) (k : Key) (v : Value) (bs : List Byte),
    s.phase = .idle → s.sync = true → s.turns = [] → s.hostCmds = [encodeCommand .recv] →
    encodePayload k (if k.getLsbD 0 = true then .float else .integer) v = .ok bs → s.rxq = bs →
      (k ≠ 0 → ∃ t, runFor 2 s = .next t ∧ t.status = .ok ∧ t.phase = .idle ∧ t.rxKey = k ∧
        t.rxTag = (if k.getLsbD 0 = true then .float else .integer) ∧
        t.rxVal = (if k.getLsbD 0 = true then v else (v.extractLsb' 0 16).signExtend 32) ∧ t.rxq = []) ∧
      (k = 0 → ∃ t, runFor 1 s = .next t ∧ t.status = .noMessage ∧ t.phase = .idle ∧
        t.rxq = [v.extractLsb' 0 8, v.extractLsb' 8 8])

/-- R64, R154, R244: from an aligned stream each RECV delivers the next frame, one per RECV and in order, and
what stands behind the frames stays in RXQ. -/
def Obligations.FramesAreDecodedInOrder : Prop :=
  ∀ (ps : List Payload) (rest : List Byte) (s : State), (∀ p ∈ ps, p.wf) →
    s.phase = .idle → s.sync = true → s.turns = [] →
    s.hostCmds = List.replicate ps.length (encodeCommand .recv) → s.rxq = ps.flatMap Payload.frame ++ rest →
      ∃ t, runFor (2 * ps.length) s = .next t ∧ t.phase = .idle ∧ t.hostCmds = [] ∧ t.rxq = rest ∧
        t.txq = s.txq ∧ t.rspLog = s.rspLog ++ ps.map Payload.response

/-- R64, R167, R168: valid sends write their frames to TXQ in the order of the commands, each answered OK. -/
def Obligations.SendsWriteFramesInOrder : Prop :=
  ∀ (ps : List Payload) (s : State), (∀ p ∈ ps, p.wf) →
    s.phase = .idle → s.sync = true → s.turns = [] → s.hostCmds = ps.map Payload.sendCommand →
      ∃ t, runFor ps.length s = .next t ∧ t.phase = .idle ∧ t.sync = true ∧ t.rxq = s.rxq ∧
        t.txq = s.txq ++ ps.flatMap Payload.frame ∧
        t.rspLog = s.rspLog ++ List.replicate ps.length
          { val := s.rxVal, key := s.rxKey, tag := s.rxTag, status := .ok }

/-- R229, R244 (CleanEntry, NoFault), S3: what one synchronized end sends, the other end receives when exactly
those bytes reach it: every payload, in order, integers sign-extended and float patterns bit for bit. -/
def Obligations.LinkDeliversEveryPayload : Prop :=
  ∀ (ps : List Payload) (a b : State), (∀ p ∈ ps, p.wf) →
    a.phase = .idle → a.sync = true → a.turns = [] → a.hostCmds = ps.map Payload.sendCommand →
    b.phase = .idle → b.sync = true → b.turns = [] →
    b.hostCmds = List.replicate ps.length (encodeCommand .recv) →
      ∃ a' b', runFor ps.length a = .next a' ∧
        runFor (2 * ps.length) { b with rxq := a'.txq.drop a.txq.length } = .next b' ∧
        b'.rxq = [] ∧ b'.rspLog = b.rspLog ++ ps.map Payload.response

/-- R256: with one byte buffered and nothing more arriving, every RECV reports NoMessage and the byte stays. -/
def Obligations.OneByteOfResidueStays : Prop :=
  ∀ (n : Nat) (s : State) (b : Byte), s.phase = .idle → s.sync = true → s.turns = [] → s.rxq = [b] →
    s.hostCmds = List.replicate n (encodeCommand .recv) →
      ∃ t, runFor n s = .next t ∧ t.phase = .idle ∧ t.rxq = [b] ∧
        t.rspLog = s.rspLog ++
          List.replicate n { val := 0, key := 0, tag := .integer, status := .noMessage }

/-- R152, R176, R255: while value bytes are missing and none arrives, no turn of the framer, the host or time ends
the hold: no response, nothing sent, nothing consumed. -/
def Obligations.HalfAFrameStallsTheBlock : Prop :=
  ∀ s : State, s.phase = .rxWait → s.rxq.length < (if s.keyReg.getLsbD 0 = true then 4 else 2) →
    noReset s.turns = true → arrivals s.turns = [] → s.params.uartWrapper = false →
      ∃ t, runFor s.turns.length s = .next t ∧ t.phase = .rxWait ∧ t.rxq = s.rxq ∧ t.keyReg = s.keyReg ∧
        t.txq = s.txq ∧ t.sync = s.sync ∧ t.status = s.status ∧ t.rspLog = s.rspLog

/-! ### The UART wrapper and the ports -/

/-- R193 and the vector of spec 95, 2.5: start bit low, eight data bits least significant first, stop bit high; the
line idles high. -/
def Obligations.LineFormat : Prop :=
  (∀ b : Byte, (lineLevels b).length = 10 ∧ (lineLevels b)[0]? = some false ∧
    (∀ i, i < 8 → (lineLevels b)[i + 1]? = some (b.getLsbD i)) ∧ (lineLevels b)[9]? = some true) ∧
  (∀ s : State, s.uart.txShift = [] → txLine s = true) ∧
  lineLevels 0x24 = [false, false, false, true, false, false, true, false, false, true]

/-- R195, R198: levels of a byte, each held for one bit period on an idle line, append exactly that byte to RXQ, or
are dropped where RXQ is full. The sample point and the rounding of the period are the model's (log 18, 19). -/
def Obligations.UartReceivesTheByteOnTheLine : Prop :=
  ∀ (s : State) (b : Byte), s.params.uartWrapper = true → s.baud ≠ 0 →
    1 ≤ bitPeriod s → s.uart.rxBits = none → s.uart.rxPrev = true →
    s.turns = (lineLevels b).flatMap (fun level => List.replicate (bitPeriod s) (.time level)) →
      ∃ t, runFor (10 * bitPeriod s) s = .next t ∧
        ((s.params.rxDepth = none ∨ ∃ d, s.params.rxDepth = some d ∧ s.rxq.length < d) → t.rxq = s.rxq ++ [b]) ∧
        (∀ d, s.params.rxDepth = some d → d ≤ s.rxq.length → t.rxq = s.rxq) ∧
        t.uart.rxBits = none ∧ t.uart.rxPrev = true

/-- R194: an idle transmitter takes the next byte of TXQ and drives each of its ten levels for one bit period. -/
def Obligations.UartTransmitsTheNextByte : Prop :=
  ∀ (s : State) (b : Byte) (lines : List Bool) (i : Nat), s.params.uartWrapper = true → s.baud ≠ 0 →
    1 ≤ bitPeriod s → s.uart.txShift = [] → s.txq[s.uart.txTaken]? = some b →
    s.turns = lines.map .time → i < 10 * bitPeriod s → i < lines.length →
      ∃ t, runFor (i + 1) s = .next t ∧ (lineLevels b)[i / bitPeriod s]? = some (txLine t) ∧
        t.uart.txTaken = s.uart.txTaken + 1 ∧ t.txq = s.txq

/-- R192: while BAUD = 0 the wrapper neither transmits nor receives; a tick notes the line's level and nothing
else, HSTIMER's count apart. -/
def Obligations.WrapperIsSilentUntilConfigured : Prop :=
  ∀ (s : State) (ts : List Turn) (line : Bool), s.turns = .time line :: ts → s.params.uartWrapper = true →
    s.baud = 0 → s.phase ≠ .hsWait →
      step s = .next { s with turns := ts, uart := { s.uart with rxPrev := line } }

/-- R56: any RXCOUNT_W of at least 3 gives the framer's comparisons with 1, 2 and 4 the same outcome. -/
def Obligations.SaturatedCountSuffices : Prop :=
  ∀ (s : State) (n : Nat), 3 ≤ s.params.rxCountW → n ∈ [1, 2, 4] → (n ≤ rxCount s ↔ n ≤ s.rxq.length)
end

