-- ==== Sys2Proof/Laws/Encoding.lean ====
section
/-! SUPPORT. The fields as concatenations, assembly after splitting, and what classifies a key. -/

namespace Sys2Proof

theorem getLsbD_append_half (hi lo : Byte) (i : Nat) :
    (hi ++ lo : BitVec 16).getLsbD i = if i < 8 then lo.getLsbD i else hi.getLsbD (i - 8) :=
  BitVec.getLsbD_append

theorem getLsbD_append_word (b3 b2 b1 b0 : Byte) (i : Nat) :
    (b3 ++ b2 ++ b1 ++ b0 : BitVec 32).getLsbD i =
      if i < 8 then b0.getLsbD i
      else if i - 8 < 8 then b1.getLsbD (i - 8)
      else if i - 8 - 8 < 8 then b2.getLsbD (i - 8 - 8)
      else b3.getLsbD (i - 8 - 8 - 8) := by
  rw [show (b3 ++ b2 ++ b1 ++ b0 : BitVec 32).getLsbD i =
    if i < 8 then b0.getLsbD i else (b3 ++ b2 ++ b1).getLsbD (i - 8) from BitVec.getLsbD_append]
  rw [BitVec.getLsbD_append, BitVec.getLsbD_append]

/-- The explicit shifts of R84 and R85 are a concatenation. -/
theorem halfOfBytes_eq_append (b0 b1 : Byte) : halfOfBytes b0 b1 = b1 ++ b0 := by
  apply BitVec.eq_of_getLsbD_eq
  intro i hi
  rw [getLsbD_append_half]
  have off (h : 8 ≤ i) : b0.getLsbD i = false := BitVec.getLsbD_of_ge b0 i h
  by_cases h : i < 8
  · simp [halfOfBytes, h, hi]
  · simp [halfOfBytes, h, hi, off (by omega)]

/-- The explicit shifts of R86 are a concatenation. -/
theorem wordOfBytes_eq_append (b0 b1 b2 b3 : Byte) :
    wordOfBytes b0 b1 b2 b3 = b3 ++ b2 ++ b1 ++ b0 := by
  apply BitVec.eq_of_getLsbD_eq
  intro i hi
  rw [getLsbD_append_word]
  have off (b : Byte) (j : Nat) (hj : 8 ≤ j) : b.getLsbD j = false := BitVec.getLsbD_of_ge b j hj
  simp only [wordOfBytes, BitVec.getLsbD_or, BitVec.getLsbD_shiftLeft, BitVec.getLsbD_setWidth]
  have h : i < 8 ∨ (8 ≤ i ∧ i < 16) ∨ (16 ≤ i ∧ i < 24) ∨ 24 ≤ i := by omega
  rcases h with h | ⟨h1, h2⟩ | ⟨h1, h2⟩ | h1
  · simp [h, hi, show i < 16 by omega, show i < 24 by omega]
  · simp [h2, hi, show ¬ i < 8 by omega, show i - 8 < 8 by omega, show i - 8 < 32 by omega,
      show i < 24 by omega, off b0 i (by omega)]
  · simp [h2, hi, show ¬ i < 8 by omega, show ¬ i < 16 by omega, show ¬ i - 8 < 8 by omega,
      show i - 16 < 8 by omega, show i - 16 < 32 by omega, off b0 i (by omega), off b1 (i - 8) (by omega),
      show i - 8 - 8 = i - 16 by omega]
  · simp [hi, show ¬ i < 8 by omega, show ¬ i < 16 by omega, show ¬ i < 24 by omega,
      show ¬ i - 8 < 8 by omega, show ¬ i - 8 - 8 < 8 by omega, show i - 24 < 32 by omega,
      off b0 i (by omega), off b1 (i - 8) (by omega), off b2 (i - 16) (by omega),
      show i - 8 - 8 - 8 = i - 24 by omega]

/-- Assembly after splitting, 16 bits (R87). -/
theorem halfOfBytes_split (v : BitVec 16) :
    halfOfBytes (v.extractLsb' 0 8) (v.extractLsb' 8 8) = v := by
  rw [halfOfBytes_eq_append]
  apply BitVec.eq_of_getLsbD_eq
  intro i hi
  rw [getLsbD_append_half]
  by_cases h : i < 8
  · simp [h]
  · simp [h, show i - 8 < 8 by omega, show 8 + (i - 8) = i by omega]

/-- Assembly after splitting, 32 bits (R87). -/
theorem wordOfBytes_split (v : BitVec 32) :
    wordOfBytes (v.extractLsb' 0 8) (v.extractLsb' 8 8) (v.extractLsb' 16 8) (v.extractLsb' 24 8) = v := by
  rw [wordOfBytes_eq_append]
  apply BitVec.eq_of_getLsbD_eq
  intro i hi
  rw [getLsbD_append_word]
  by_cases h : i < 8
  · simp [h]
  by_cases h1 : i - 8 < 8
  · simp [h, h1, show 8 + (i - 8) = i by omega]
  by_cases h2 : i - 8 - 8 < 8
  · simp [h, h1, h2, show 16 + (i - 8 - 8) = i by omega]
  · simp [h, h1, h2, show i - 8 - 8 - 8 < 8 by omega, show 24 + (i - 8 - 8 - 8) = i by omega]

theorem classifyKey_reserved {key : Key} : classifyKey key = .reserved ↔ key = Config.keyNone := by
  unfold classifyKey
  split
  · simp [*]
  · split <;> simp [*]

theorem classifyKey_integer {key : Key} :
    classifyKey key = .integer ↔ key ≠ Config.keyNone ∧ parity key = false := by
  unfold classifyKey
  split
  · simp [*]
  · split <;> simp_all

theorem classifyKey_float {key : Key} : classifyKey key = .float ↔ parity key = true := by
  unfold classifyKey
  split
  · next h => subst h; decide
  · split <;> simp_all

namespace Machine

/-- What ENCODE answers (R130 to R133). -/
theorem encodePayload_eq (key : Key) (tag : Tag) (v : Value) :
    encodePayload key tag v =
      if parity key = tag.bit then
        .ok (if tag = .integer then integerFrame key (integerOf v) else floatFrame key v)
      else .error .invalidKeyParity := by
  cases tag <;> rfl

theorem integerOf_setWidth (v : IntPattern) : integerOf (v.setWidth 32) = v := by
  ext i hi
  simp [integerOf, BitVec.getLsbD_eq_getElem hi, show i < 32 by omega]

end Machine

end Sys2Proof
end

