-- ==== Sys2Proof/Laws/State.lean ====
section
/-! SUPPORT. One lemma per field per writer of State, each true by rfl. -/

namespace Sys2Proof.Machine

variable (s : State)

/-! ### setPhase -/

@[simp] theorem State.setPhase_sync (p : Phase) : (s.setPhase p).sync = s.sync := rfl
@[simp] theorem State.setPhase_phase (p : Phase) : (s.setPhase p).phase = p := rfl
@[simp] theorem State.setPhase_txKey (p : Phase) : (s.setPhase p).txKey = s.txKey := rfl
@[simp] theorem State.setPhase_txTag (p : Phase) : (s.setPhase p).txTag = s.txTag := rfl
@[simp] theorem State.setPhase_txVal (p : Phase) : (s.setPhase p).txVal = s.txVal := rfl
@[simp] theorem State.setPhase_rxKey (p : Phase) : (s.setPhase p).rxKey = s.rxKey := rfl
@[simp] theorem State.setPhase_rxTag (p : Phase) : (s.setPhase p).rxTag = s.rxTag := rfl
@[simp] theorem State.setPhase_rxVal (p : Phase) : (s.setPhase p).rxVal = s.rxVal := rfl
@[simp] theorem State.setPhase_status (p : Phase) : (s.setPhase p).status = s.status := rfl
@[simp] theorem State.setPhase_keyReg (p : Phase) : (s.setPhase p).keyReg = s.keyReg := rfl
@[simp] theorem State.setPhase_hsCount (p : Phase) : (s.setPhase p).hsCount = s.hsCount := rfl
@[simp] theorem State.setPhase_hsTimer (p : Phase) : (s.setPhase p).hsTimer = s.hsTimer := rfl
@[simp] theorem State.setPhase_baud (p : Phase) : (s.setPhase p).baud = s.baud := rfl
@[simp] theorem State.setPhase_rxq (p : Phase) : (s.setPhase p).rxq = s.rxq := rfl
@[simp] theorem State.setPhase_txq (p : Phase) : (s.setPhase p).txq = s.txq := rfl
@[simp] theorem State.setPhase_uart (p : Phase) : (s.setPhase p).uart = s.uart := rfl
@[simp] theorem State.setPhase_params (p : Phase) : (s.setPhase p).params = s.params := rfl
@[simp] theorem State.setPhase_hostCmds (p : Phase) : (s.setPhase p).hostCmds = s.hostCmds := rfl
@[simp] theorem State.setPhase_turns (p : Phase) : (s.setPhase p).turns = s.turns := rfl
@[simp] theorem State.setPhase_rspLog (p : Phase) : (s.setPhase p).rspLog = s.rspLog := rfl

/-! ### setSync -/

@[simp] theorem State.setSync_sync (b : Bool) : (s.setSync b).sync = b := rfl
@[simp] theorem State.setSync_phase (b : Bool) : (s.setSync b).phase = s.phase := rfl
@[simp] theorem State.setSync_txKey (b : Bool) : (s.setSync b).txKey = s.txKey := rfl
@[simp] theorem State.setSync_txTag (b : Bool) : (s.setSync b).txTag = s.txTag := rfl
@[simp] theorem State.setSync_txVal (b : Bool) : (s.setSync b).txVal = s.txVal := rfl
@[simp] theorem State.setSync_rxKey (b : Bool) : (s.setSync b).rxKey = s.rxKey := rfl
@[simp] theorem State.setSync_rxTag (b : Bool) : (s.setSync b).rxTag = s.rxTag := rfl
@[simp] theorem State.setSync_rxVal (b : Bool) : (s.setSync b).rxVal = s.rxVal := rfl
@[simp] theorem State.setSync_status (b : Bool) : (s.setSync b).status = s.status := rfl
@[simp] theorem State.setSync_keyReg (b : Bool) : (s.setSync b).keyReg = s.keyReg := rfl
@[simp] theorem State.setSync_hsCount (b : Bool) : (s.setSync b).hsCount = s.hsCount := rfl
@[simp] theorem State.setSync_hsTimer (b : Bool) : (s.setSync b).hsTimer = s.hsTimer := rfl
@[simp] theorem State.setSync_baud (b : Bool) : (s.setSync b).baud = s.baud := rfl
@[simp] theorem State.setSync_rxq (b : Bool) : (s.setSync b).rxq = s.rxq := rfl
@[simp] theorem State.setSync_txq (b : Bool) : (s.setSync b).txq = s.txq := rfl
@[simp] theorem State.setSync_uart (b : Bool) : (s.setSync b).uart = s.uart := rfl
@[simp] theorem State.setSync_params (b : Bool) : (s.setSync b).params = s.params := rfl
@[simp] theorem State.setSync_hostCmds (b : Bool) : (s.setSync b).hostCmds = s.hostCmds := rfl
@[simp] theorem State.setSync_turns (b : Bool) : (s.setSync b).turns = s.turns := rfl
@[simp] theorem State.setSync_rspLog (b : Bool) : (s.setSync b).rspLog = s.rspLog := rfl

/-! ### setKeyReg -/

@[simp] theorem State.setKeyReg_sync (k : Key) : (s.setKeyReg k).sync = s.sync := rfl
@[simp] theorem State.setKeyReg_phase (k : Key) : (s.setKeyReg k).phase = s.phase := rfl
@[simp] theorem State.setKeyReg_txKey (k : Key) : (s.setKeyReg k).txKey = s.txKey := rfl
@[simp] theorem State.setKeyReg_txTag (k : Key) : (s.setKeyReg k).txTag = s.txTag := rfl
@[simp] theorem State.setKeyReg_txVal (k : Key) : (s.setKeyReg k).txVal = s.txVal := rfl
@[simp] theorem State.setKeyReg_rxKey (k : Key) : (s.setKeyReg k).rxKey = s.rxKey := rfl
@[simp] theorem State.setKeyReg_rxTag (k : Key) : (s.setKeyReg k).rxTag = s.rxTag := rfl
@[simp] theorem State.setKeyReg_rxVal (k : Key) : (s.setKeyReg k).rxVal = s.rxVal := rfl
@[simp] theorem State.setKeyReg_status (k : Key) : (s.setKeyReg k).status = s.status := rfl
@[simp] theorem State.setKeyReg_keyReg (k : Key) : (s.setKeyReg k).keyReg = k := rfl
@[simp] theorem State.setKeyReg_hsCount (k : Key) : (s.setKeyReg k).hsCount = s.hsCount := rfl
@[simp] theorem State.setKeyReg_hsTimer (k : Key) : (s.setKeyReg k).hsTimer = s.hsTimer := rfl
@[simp] theorem State.setKeyReg_baud (k : Key) : (s.setKeyReg k).baud = s.baud := rfl
@[simp] theorem State.setKeyReg_rxq (k : Key) : (s.setKeyReg k).rxq = s.rxq := rfl
@[simp] theorem State.setKeyReg_txq (k : Key) : (s.setKeyReg k).txq = s.txq := rfl
@[simp] theorem State.setKeyReg_uart (k : Key) : (s.setKeyReg k).uart = s.uart := rfl
@[simp] theorem State.setKeyReg_params (k : Key) : (s.setKeyReg k).params = s.params := rfl
@[simp] theorem State.setKeyReg_hostCmds (k : Key) : (s.setKeyReg k).hostCmds = s.hostCmds := rfl
@[simp] theorem State.setKeyReg_turns (k : Key) : (s.setKeyReg k).turns = s.turns := rfl
@[simp] theorem State.setKeyReg_rspLog (k : Key) : (s.setKeyReg k).rspLog = s.rspLog := rfl

/-! ### setHsCount -/

@[simp] theorem State.setHsCount_sync (n : BitVec 16) : (s.setHsCount n).sync = s.sync := rfl
@[simp] theorem State.setHsCount_phase (n : BitVec 16) : (s.setHsCount n).phase = s.phase := rfl
@[simp] theorem State.setHsCount_txKey (n : BitVec 16) : (s.setHsCount n).txKey = s.txKey := rfl
@[simp] theorem State.setHsCount_txTag (n : BitVec 16) : (s.setHsCount n).txTag = s.txTag := rfl
@[simp] theorem State.setHsCount_txVal (n : BitVec 16) : (s.setHsCount n).txVal = s.txVal := rfl
@[simp] theorem State.setHsCount_rxKey (n : BitVec 16) : (s.setHsCount n).rxKey = s.rxKey := rfl
@[simp] theorem State.setHsCount_rxTag (n : BitVec 16) : (s.setHsCount n).rxTag = s.rxTag := rfl
@[simp] theorem State.setHsCount_rxVal (n : BitVec 16) : (s.setHsCount n).rxVal = s.rxVal := rfl
@[simp] theorem State.setHsCount_status (n : BitVec 16) : (s.setHsCount n).status = s.status := rfl
@[simp] theorem State.setHsCount_keyReg (n : BitVec 16) : (s.setHsCount n).keyReg = s.keyReg := rfl
@[simp] theorem State.setHsCount_hsCount (n : BitVec 16) : (s.setHsCount n).hsCount = n := rfl
@[simp] theorem State.setHsCount_hsTimer (n : BitVec 16) : (s.setHsCount n).hsTimer = s.hsTimer := rfl
@[simp] theorem State.setHsCount_baud (n : BitVec 16) : (s.setHsCount n).baud = s.baud := rfl
@[simp] theorem State.setHsCount_rxq (n : BitVec 16) : (s.setHsCount n).rxq = s.rxq := rfl
@[simp] theorem State.setHsCount_txq (n : BitVec 16) : (s.setHsCount n).txq = s.txq := rfl
@[simp] theorem State.setHsCount_uart (n : BitVec 16) : (s.setHsCount n).uart = s.uart := rfl
@[simp] theorem State.setHsCount_params (n : BitVec 16) : (s.setHsCount n).params = s.params := rfl
@[simp] theorem State.setHsCount_hostCmds (n : BitVec 16) : (s.setHsCount n).hostCmds = s.hostCmds := rfl
@[simp] theorem State.setHsCount_turns (n : BitVec 16) : (s.setHsCount n).turns = s.turns := rfl
@[simp] theorem State.setHsCount_rspLog (n : BitVec 16) : (s.setHsCount n).rspLog = s.rspLog := rfl

/-! ### setHsTimer -/

@[simp] theorem State.setHsTimer_sync (n : Nat) : (s.setHsTimer n).sync = s.sync := rfl
@[simp] theorem State.setHsTimer_phase (n : Nat) : (s.setHsTimer n).phase = s.phase := rfl
@[simp] theorem State.setHsTimer_txKey (n : Nat) : (s.setHsTimer n).txKey = s.txKey := rfl
@[simp] theorem State.setHsTimer_txTag (n : Nat) : (s.setHsTimer n).txTag = s.txTag := rfl
@[simp] theorem State.setHsTimer_txVal (n : Nat) : (s.setHsTimer n).txVal = s.txVal := rfl
@[simp] theorem State.setHsTimer_rxKey (n : Nat) : (s.setHsTimer n).rxKey = s.rxKey := rfl
@[simp] theorem State.setHsTimer_rxTag (n : Nat) : (s.setHsTimer n).rxTag = s.rxTag := rfl
@[simp] theorem State.setHsTimer_rxVal (n : Nat) : (s.setHsTimer n).rxVal = s.rxVal := rfl
@[simp] theorem State.setHsTimer_status (n : Nat) : (s.setHsTimer n).status = s.status := rfl
@[simp] theorem State.setHsTimer_keyReg (n : Nat) : (s.setHsTimer n).keyReg = s.keyReg := rfl
@[simp] theorem State.setHsTimer_hsCount (n : Nat) : (s.setHsTimer n).hsCount = s.hsCount := rfl
@[simp] theorem State.setHsTimer_hsTimer (n : Nat) : (s.setHsTimer n).hsTimer = n := rfl
@[simp] theorem State.setHsTimer_baud (n : Nat) : (s.setHsTimer n).baud = s.baud := rfl
@[simp] theorem State.setHsTimer_rxq (n : Nat) : (s.setHsTimer n).rxq = s.rxq := rfl
@[simp] theorem State.setHsTimer_txq (n : Nat) : (s.setHsTimer n).txq = s.txq := rfl
@[simp] theorem State.setHsTimer_uart (n : Nat) : (s.setHsTimer n).uart = s.uart := rfl
@[simp] theorem State.setHsTimer_params (n : Nat) : (s.setHsTimer n).params = s.params := rfl
@[simp] theorem State.setHsTimer_hostCmds (n : Nat) : (s.setHsTimer n).hostCmds = s.hostCmds := rfl
@[simp] theorem State.setHsTimer_turns (n : Nat) : (s.setHsTimer n).turns = s.turns := rfl
@[simp] theorem State.setHsTimer_rspLog (n : Nat) : (s.setHsTimer n).rspLog = s.rspLog := rfl

/-! ### setUart -/

@[simp] theorem State.setUart_sync (u : Uart) : (s.setUart u).sync = s.sync := rfl
@[simp] theorem State.setUart_phase (u : Uart) : (s.setUart u).phase = s.phase := rfl
@[simp] theorem State.setUart_txKey (u : Uart) : (s.setUart u).txKey = s.txKey := rfl
@[simp] theorem State.setUart_txTag (u : Uart) : (s.setUart u).txTag = s.txTag := rfl
@[simp] theorem State.setUart_txVal (u : Uart) : (s.setUart u).txVal = s.txVal := rfl
@[simp] theorem State.setUart_rxKey (u : Uart) : (s.setUart u).rxKey = s.rxKey := rfl
@[simp] theorem State.setUart_rxTag (u : Uart) : (s.setUart u).rxTag = s.rxTag := rfl
@[simp] theorem State.setUart_rxVal (u : Uart) : (s.setUart u).rxVal = s.rxVal := rfl
@[simp] theorem State.setUart_status (u : Uart) : (s.setUart u).status = s.status := rfl
@[simp] theorem State.setUart_keyReg (u : Uart) : (s.setUart u).keyReg = s.keyReg := rfl
@[simp] theorem State.setUart_hsCount (u : Uart) : (s.setUart u).hsCount = s.hsCount := rfl
@[simp] theorem State.setUart_hsTimer (u : Uart) : (s.setUart u).hsTimer = s.hsTimer := rfl
@[simp] theorem State.setUart_baud (u : Uart) : (s.setUart u).baud = s.baud := rfl
@[simp] theorem State.setUart_rxq (u : Uart) : (s.setUart u).rxq = s.rxq := rfl
@[simp] theorem State.setUart_txq (u : Uart) : (s.setUart u).txq = s.txq := rfl
@[simp] theorem State.setUart_uart (u : Uart) : (s.setUart u).uart = u := rfl
@[simp] theorem State.setUart_params (u : Uart) : (s.setUart u).params = s.params := rfl
@[simp] theorem State.setUart_hostCmds (u : Uart) : (s.setUart u).hostCmds = s.hostCmds := rfl
@[simp] theorem State.setUart_turns (u : Uart) : (s.setUart u).turns = s.turns := rfl
@[simp] theorem State.setUart_rspLog (u : Uart) : (s.setUart u).rspLog = s.rspLog := rfl

/-! ### setRxq -/

@[simp] theorem State.setRxq_sync (q : List Byte) : (s.setRxq q).sync = s.sync := rfl
@[simp] theorem State.setRxq_phase (q : List Byte) : (s.setRxq q).phase = s.phase := rfl
@[simp] theorem State.setRxq_txKey (q : List Byte) : (s.setRxq q).txKey = s.txKey := rfl
@[simp] theorem State.setRxq_txTag (q : List Byte) : (s.setRxq q).txTag = s.txTag := rfl
@[simp] theorem State.setRxq_txVal (q : List Byte) : (s.setRxq q).txVal = s.txVal := rfl
@[simp] theorem State.setRxq_rxKey (q : List Byte) : (s.setRxq q).rxKey = s.rxKey := rfl
@[simp] theorem State.setRxq_rxTag (q : List Byte) : (s.setRxq q).rxTag = s.rxTag := rfl
@[simp] theorem State.setRxq_rxVal (q : List Byte) : (s.setRxq q).rxVal = s.rxVal := rfl
@[simp] theorem State.setRxq_status (q : List Byte) : (s.setRxq q).status = s.status := rfl
@[simp] theorem State.setRxq_keyReg (q : List Byte) : (s.setRxq q).keyReg = s.keyReg := rfl
@[simp] theorem State.setRxq_hsCount (q : List Byte) : (s.setRxq q).hsCount = s.hsCount := rfl
@[simp] theorem State.setRxq_hsTimer (q : List Byte) : (s.setRxq q).hsTimer = s.hsTimer := rfl
@[simp] theorem State.setRxq_baud (q : List Byte) : (s.setRxq q).baud = s.baud := rfl
@[simp] theorem State.setRxq_rxq (q : List Byte) : (s.setRxq q).rxq = q := rfl
@[simp] theorem State.setRxq_txq (q : List Byte) : (s.setRxq q).txq = s.txq := rfl
@[simp] theorem State.setRxq_uart (q : List Byte) : (s.setRxq q).uart = s.uart := rfl
@[simp] theorem State.setRxq_params (q : List Byte) : (s.setRxq q).params = s.params := rfl
@[simp] theorem State.setRxq_hostCmds (q : List Byte) : (s.setRxq q).hostCmds = s.hostCmds := rfl
@[simp] theorem State.setRxq_turns (q : List Byte) : (s.setRxq q).turns = s.turns := rfl
@[simp] theorem State.setRxq_rspLog (q : List Byte) : (s.setRxq q).rspLog = s.rspLog := rfl

/-! ### setTurns -/

@[simp] theorem State.setTurns_sync (ts : List Turn) : (s.setTurns ts).sync = s.sync := rfl
@[simp] theorem State.setTurns_phase (ts : List Turn) : (s.setTurns ts).phase = s.phase := rfl
@[simp] theorem State.setTurns_txKey (ts : List Turn) : (s.setTurns ts).txKey = s.txKey := rfl
@[simp] theorem State.setTurns_txTag (ts : List Turn) : (s.setTurns ts).txTag = s.txTag := rfl
@[simp] theorem State.setTurns_txVal (ts : List Turn) : (s.setTurns ts).txVal = s.txVal := rfl
@[simp] theorem State.setTurns_rxKey (ts : List Turn) : (s.setTurns ts).rxKey = s.rxKey := rfl
@[simp] theorem State.setTurns_rxTag (ts : List Turn) : (s.setTurns ts).rxTag = s.rxTag := rfl
@[simp] theorem State.setTurns_rxVal (ts : List Turn) : (s.setTurns ts).rxVal = s.rxVal := rfl
@[simp] theorem State.setTurns_status (ts : List Turn) : (s.setTurns ts).status = s.status := rfl
@[simp] theorem State.setTurns_keyReg (ts : List Turn) : (s.setTurns ts).keyReg = s.keyReg := rfl
@[simp] theorem State.setTurns_hsCount (ts : List Turn) : (s.setTurns ts).hsCount = s.hsCount := rfl
@[simp] theorem State.setTurns_hsTimer (ts : List Turn) : (s.setTurns ts).hsTimer = s.hsTimer := rfl
@[simp] theorem State.setTurns_baud (ts : List Turn) : (s.setTurns ts).baud = s.baud := rfl
@[simp] theorem State.setTurns_rxq (ts : List Turn) : (s.setTurns ts).rxq = s.rxq := rfl
@[simp] theorem State.setTurns_txq (ts : List Turn) : (s.setTurns ts).txq = s.txq := rfl
@[simp] theorem State.setTurns_uart (ts : List Turn) : (s.setTurns ts).uart = s.uart := rfl
@[simp] theorem State.setTurns_params (ts : List Turn) : (s.setTurns ts).params = s.params := rfl
@[simp] theorem State.setTurns_hostCmds (ts : List Turn) : (s.setTurns ts).hostCmds = s.hostCmds := rfl
@[simp] theorem State.setTurns_turns (ts : List Turn) : (s.setTurns ts).turns = ts := rfl
@[simp] theorem State.setTurns_rspLog (ts : List Turn) : (s.setTurns ts).rspLog = s.rspLog := rfl

/-! ### setHostCmds -/

@[simp] theorem State.setHostCmds_sync (cs : List CommandWord) : (s.setHostCmds cs).sync = s.sync := rfl
@[simp] theorem State.setHostCmds_phase (cs : List CommandWord) : (s.setHostCmds cs).phase = s.phase := rfl
@[simp] theorem State.setHostCmds_txKey (cs : List CommandWord) : (s.setHostCmds cs).txKey = s.txKey := rfl
@[simp] theorem State.setHostCmds_txTag (cs : List CommandWord) : (s.setHostCmds cs).txTag = s.txTag := rfl
@[simp] theorem State.setHostCmds_txVal (cs : List CommandWord) : (s.setHostCmds cs).txVal = s.txVal := rfl
@[simp] theorem State.setHostCmds_rxKey (cs : List CommandWord) : (s.setHostCmds cs).rxKey = s.rxKey := rfl
@[simp] theorem State.setHostCmds_rxTag (cs : List CommandWord) : (s.setHostCmds cs).rxTag = s.rxTag := rfl
@[simp] theorem State.setHostCmds_rxVal (cs : List CommandWord) : (s.setHostCmds cs).rxVal = s.rxVal := rfl
@[simp] theorem State.setHostCmds_status (cs : List CommandWord) : (s.setHostCmds cs).status = s.status := rfl
@[simp] theorem State.setHostCmds_keyReg (cs : List CommandWord) : (s.setHostCmds cs).keyReg = s.keyReg := rfl
@[simp] theorem State.setHostCmds_hsCount (cs : List CommandWord) : (s.setHostCmds cs).hsCount = s.hsCount := rfl
@[simp] theorem State.setHostCmds_hsTimer (cs : List CommandWord) : (s.setHostCmds cs).hsTimer = s.hsTimer := rfl
@[simp] theorem State.setHostCmds_baud (cs : List CommandWord) : (s.setHostCmds cs).baud = s.baud := rfl
@[simp] theorem State.setHostCmds_rxq (cs : List CommandWord) : (s.setHostCmds cs).rxq = s.rxq := rfl
@[simp] theorem State.setHostCmds_txq (cs : List CommandWord) : (s.setHostCmds cs).txq = s.txq := rfl
@[simp] theorem State.setHostCmds_uart (cs : List CommandWord) : (s.setHostCmds cs).uart = s.uart := rfl
@[simp] theorem State.setHostCmds_params (cs : List CommandWord) : (s.setHostCmds cs).params = s.params := rfl
@[simp] theorem State.setHostCmds_hostCmds (cs : List CommandWord) : (s.setHostCmds cs).hostCmds = cs := rfl
@[simp] theorem State.setHostCmds_turns (cs : List CommandWord) : (s.setHostCmds cs).turns = s.turns := rfl
@[simp] theorem State.setHostCmds_rspLog (cs : List CommandWord) : (s.setHostCmds cs).rspLog = s.rspLog := rfl

/-! ### latchSend -/

@[simp] theorem State.latchSend_sync (k : Key) (t : Tag) (v : Value) : (s.latchSend k t v).sync = s.sync := rfl
@[simp] theorem State.latchSend_phase (k : Key) (t : Tag) (v : Value) : (s.latchSend k t v).phase = s.phase := rfl
@[simp] theorem State.latchSend_txKey (k : Key) (t : Tag) (v : Value) : (s.latchSend k t v).txKey = k := rfl
@[simp] theorem State.latchSend_txTag (k : Key) (t : Tag) (v : Value) : (s.latchSend k t v).txTag = t := rfl
@[simp] theorem State.latchSend_txVal (k : Key) (t : Tag) (v : Value) : (s.latchSend k t v).txVal = v := rfl
@[simp] theorem State.latchSend_rxKey (k : Key) (t : Tag) (v : Value) : (s.latchSend k t v).rxKey = s.rxKey := rfl
@[simp] theorem State.latchSend_rxTag (k : Key) (t : Tag) (v : Value) : (s.latchSend k t v).rxTag = s.rxTag := rfl
@[simp] theorem State.latchSend_rxVal (k : Key) (t : Tag) (v : Value) : (s.latchSend k t v).rxVal = s.rxVal := rfl
@[simp] theorem State.latchSend_status (k : Key) (t : Tag) (v : Value) : (s.latchSend k t v).status = s.status := rfl
@[simp] theorem State.latchSend_keyReg (k : Key) (t : Tag) (v : Value) : (s.latchSend k t v).keyReg = s.keyReg := rfl
@[simp] theorem State.latchSend_hsCount (k : Key) (t : Tag) (v : Value) : (s.latchSend k t v).hsCount = s.hsCount := rfl
@[simp] theorem State.latchSend_hsTimer (k : Key) (t : Tag) (v : Value) : (s.latchSend k t v).hsTimer = s.hsTimer := rfl
@[simp] theorem State.latchSend_baud (k : Key) (t : Tag) (v : Value) : (s.latchSend k t v).baud = s.baud := rfl
@[simp] theorem State.latchSend_rxq (k : Key) (t : Tag) (v : Value) : (s.latchSend k t v).rxq = s.rxq := rfl
@[simp] theorem State.latchSend_txq (k : Key) (t : Tag) (v : Value) : (s.latchSend k t v).txq = s.txq := rfl
@[simp] theorem State.latchSend_uart (k : Key) (t : Tag) (v : Value) : (s.latchSend k t v).uart = s.uart := rfl
@[simp] theorem State.latchSend_params (k : Key) (t : Tag) (v : Value) : (s.latchSend k t v).params = s.params := rfl
@[simp] theorem State.latchSend_hostCmds (k : Key) (t : Tag) (v : Value) : (s.latchSend k t v).hostCmds = s.hostCmds := rfl
@[simp] theorem State.latchSend_turns (k : Key) (t : Tag) (v : Value) : (s.latchSend k t v).turns = s.turns := rfl
@[simp] theorem State.latchSend_rspLog (k : Key) (t : Tag) (v : Value) : (s.latchSend k t v).rspLog = s.rspLog := rfl

/-! ### latchResult -/

@[simp] theorem State.latchResult_sync (k : Key) (t : Tag) (v : Value) : (s.latchResult k t v).sync = s.sync := rfl
@[simp] theorem State.latchResult_phase (k : Key) (t : Tag) (v : Value) : (s.latchResult k t v).phase = s.phase := rfl
@[simp] theorem State.latchResult_txKey (k : Key) (t : Tag) (v : Value) : (s.latchResult k t v).txKey = s.txKey := rfl
@[simp] theorem State.latchResult_txTag (k : Key) (t : Tag) (v : Value) : (s.latchResult k t v).txTag = s.txTag := rfl
@[simp] theorem State.latchResult_txVal (k : Key) (t : Tag) (v : Value) : (s.latchResult k t v).txVal = s.txVal := rfl
@[simp] theorem State.latchResult_rxKey (k : Key) (t : Tag) (v : Value) : (s.latchResult k t v).rxKey = k := rfl
@[simp] theorem State.latchResult_rxTag (k : Key) (t : Tag) (v : Value) : (s.latchResult k t v).rxTag = t := rfl
@[simp] theorem State.latchResult_rxVal (k : Key) (t : Tag) (v : Value) : (s.latchResult k t v).rxVal = v := rfl
@[simp] theorem State.latchResult_status (k : Key) (t : Tag) (v : Value) : (s.latchResult k t v).status = s.status := rfl
@[simp] theorem State.latchResult_keyReg (k : Key) (t : Tag) (v : Value) : (s.latchResult k t v).keyReg = s.keyReg := rfl
@[simp] theorem State.latchResult_hsCount (k : Key) (t : Tag) (v : Value) : (s.latchResult k t v).hsCount = s.hsCount := rfl
@[simp] theorem State.latchResult_hsTimer (k : Key) (t : Tag) (v : Value) : (s.latchResult k t v).hsTimer = s.hsTimer := rfl
@[simp] theorem State.latchResult_baud (k : Key) (t : Tag) (v : Value) : (s.latchResult k t v).baud = s.baud := rfl
@[simp] theorem State.latchResult_rxq (k : Key) (t : Tag) (v : Value) : (s.latchResult k t v).rxq = s.rxq := rfl
@[simp] theorem State.latchResult_txq (k : Key) (t : Tag) (v : Value) : (s.latchResult k t v).txq = s.txq := rfl
@[simp] theorem State.latchResult_uart (k : Key) (t : Tag) (v : Value) : (s.latchResult k t v).uart = s.uart := rfl
@[simp] theorem State.latchResult_params (k : Key) (t : Tag) (v : Value) : (s.latchResult k t v).params = s.params := rfl
@[simp] theorem State.latchResult_hostCmds (k : Key) (t : Tag) (v : Value) : (s.latchResult k t v).hostCmds = s.hostCmds := rfl
@[simp] theorem State.latchResult_turns (k : Key) (t : Tag) (v : Value) : (s.latchResult k t v).turns = s.turns := rfl
@[simp] theorem State.latchResult_rspLog (k : Key) (t : Tag) (v : Value) : (s.latchResult k t v).rspLog = s.rspLog := rfl

/-! ### txWrite -/

@[simp] theorem State.txWrite_sync (bs : List Byte) : (s.txWrite bs).sync = s.sync := rfl
@[simp] theorem State.txWrite_phase (bs : List Byte) : (s.txWrite bs).phase = s.phase := rfl
@[simp] theorem State.txWrite_txKey (bs : List Byte) : (s.txWrite bs).txKey = s.txKey := rfl
@[simp] theorem State.txWrite_txTag (bs : List Byte) : (s.txWrite bs).txTag = s.txTag := rfl
@[simp] theorem State.txWrite_txVal (bs : List Byte) : (s.txWrite bs).txVal = s.txVal := rfl
@[simp] theorem State.txWrite_rxKey (bs : List Byte) : (s.txWrite bs).rxKey = s.rxKey := rfl
@[simp] theorem State.txWrite_rxTag (bs : List Byte) : (s.txWrite bs).rxTag = s.rxTag := rfl
@[simp] theorem State.txWrite_rxVal (bs : List Byte) : (s.txWrite bs).rxVal = s.rxVal := rfl
@[simp] theorem State.txWrite_status (bs : List Byte) : (s.txWrite bs).status = s.status := rfl
@[simp] theorem State.txWrite_keyReg (bs : List Byte) : (s.txWrite bs).keyReg = s.keyReg := rfl
@[simp] theorem State.txWrite_hsCount (bs : List Byte) : (s.txWrite bs).hsCount = s.hsCount := rfl
@[simp] theorem State.txWrite_hsTimer (bs : List Byte) : (s.txWrite bs).hsTimer = s.hsTimer := rfl
@[simp] theorem State.txWrite_baud (bs : List Byte) : (s.txWrite bs).baud = s.baud := rfl
@[simp] theorem State.txWrite_rxq (bs : List Byte) : (s.txWrite bs).rxq = s.rxq := rfl
@[simp] theorem State.txWrite_txq (bs : List Byte) : (s.txWrite bs).txq = s.txq ++ bs := rfl
@[simp] theorem State.txWrite_uart (bs : List Byte) : (s.txWrite bs).uart = s.uart := rfl
@[simp] theorem State.txWrite_params (bs : List Byte) : (s.txWrite bs).params = s.params := rfl
@[simp] theorem State.txWrite_hostCmds (bs : List Byte) : (s.txWrite bs).hostCmds = s.hostCmds := rfl
@[simp] theorem State.txWrite_turns (bs : List Byte) : (s.txWrite bs).turns = s.turns := rfl
@[simp] theorem State.txWrite_rspLog (bs : List Byte) : (s.txWrite bs).rspLog = s.rspLog := rfl

/-! ### configure -/

@[simp] theorem State.configure_sync (r : BitVec 16) : (s.configure r).sync = s.sync := rfl
@[simp] theorem State.configure_phase (r : BitVec 16) : (s.configure r).phase = s.phase := rfl
@[simp] theorem State.configure_txKey (r : BitVec 16) : (s.configure r).txKey = s.txKey := rfl
@[simp] theorem State.configure_txTag (r : BitVec 16) : (s.configure r).txTag = s.txTag := rfl
@[simp] theorem State.configure_txVal (r : BitVec 16) : (s.configure r).txVal = s.txVal := rfl
@[simp] theorem State.configure_rxKey (r : BitVec 16) : (s.configure r).rxKey = s.rxKey := rfl
@[simp] theorem State.configure_rxTag (r : BitVec 16) : (s.configure r).rxTag = s.rxTag := rfl
@[simp] theorem State.configure_rxVal (r : BitVec 16) : (s.configure r).rxVal = s.rxVal := rfl
@[simp] theorem State.configure_status (r : BitVec 16) : (s.configure r).status = s.status := rfl
@[simp] theorem State.configure_keyReg (r : BitVec 16) : (s.configure r).keyReg = s.keyReg := rfl
@[simp] theorem State.configure_hsCount (r : BitVec 16) : (s.configure r).hsCount = s.hsCount := rfl
@[simp] theorem State.configure_hsTimer (r : BitVec 16) : (s.configure r).hsTimer = s.hsTimer := rfl
@[simp] theorem State.configure_baud (r : BitVec 16) : (s.configure r).baud = r := rfl
@[simp] theorem State.configure_rxq (r : BitVec 16) : (s.configure r).rxq = s.rxq := rfl
@[simp] theorem State.configure_txq (r : BitVec 16) : (s.configure r).txq = s.txq := rfl
@[simp] theorem State.configure_uart (r : BitVec 16) : (s.configure r).uart = s.uart := rfl
@[simp] theorem State.configure_params (r : BitVec 16) : (s.configure r).params = s.params := rfl
@[simp] theorem State.configure_hostCmds (r : BitVec 16) : (s.configure r).hostCmds = s.hostCmds := rfl
@[simp] theorem State.configure_turns (r : BitVec 16) : (s.configure r).turns = s.turns := rfl
@[simp] theorem State.configure_rspLog (r : BitVec 16) : (s.configure r).rspLog = s.rspLog := rfl

/-! ### finish -/

@[simp] theorem State.finish_sync (c : ResultCode) : (s.finish c).sync = s.sync := rfl
@[simp] theorem State.finish_phase (c : ResultCode) : (s.finish c).phase = .idle := rfl
@[simp] theorem State.finish_txKey (c : ResultCode) : (s.finish c).txKey = s.txKey := rfl
@[simp] theorem State.finish_txTag (c : ResultCode) : (s.finish c).txTag = s.txTag := rfl
@[simp] theorem State.finish_txVal (c : ResultCode) : (s.finish c).txVal = s.txVal := rfl
@[simp] theorem State.finish_rxKey (c : ResultCode) : (s.finish c).rxKey = s.rxKey := rfl
@[simp] theorem State.finish_rxTag (c : ResultCode) : (s.finish c).rxTag = s.rxTag := rfl
@[simp] theorem State.finish_rxVal (c : ResultCode) : (s.finish c).rxVal = s.rxVal := rfl
@[simp] theorem State.finish_status (c : ResultCode) : (s.finish c).status = c := rfl
@[simp] theorem State.finish_keyReg (c : ResultCode) : (s.finish c).keyReg = s.keyReg := rfl
@[simp] theorem State.finish_hsCount (c : ResultCode) : (s.finish c).hsCount = s.hsCount := rfl
@[simp] theorem State.finish_hsTimer (c : ResultCode) : (s.finish c).hsTimer = s.hsTimer := rfl
@[simp] theorem State.finish_baud (c : ResultCode) : (s.finish c).baud = s.baud := rfl
@[simp] theorem State.finish_rxq (c : ResultCode) : (s.finish c).rxq = s.rxq := rfl
@[simp] theorem State.finish_txq (c : ResultCode) : (s.finish c).txq = s.txq := rfl
@[simp] theorem State.finish_uart (c : ResultCode) : (s.finish c).uart = s.uart := rfl
@[simp] theorem State.finish_params (c : ResultCode) : (s.finish c).params = s.params := rfl
@[simp] theorem State.finish_hostCmds (c : ResultCode) : (s.finish c).hostCmds = s.hostCmds := rfl
@[simp] theorem State.finish_turns (c : ResultCode) : (s.finish c).turns = s.turns := rfl
@[simp] theorem State.finish_rspLog (c : ResultCode) : (s.finish c).rspLog = s.rspLog ++ [s.response c] := rfl

/-! ### The two names of the end of an operation -/

@[simp] theorem State.complete_eq (c : ResultCode) : s.complete c = s.finish c := rfl
@[simp] theorem State.raise_eq (c : ResultCode) : s.raise c = s.finish c := rfl
theorem State.completeNoMessage_eq :
    s.completeNoMessage = (s.latchResult Config.keyNone .integer 0).finish .noMessage := rfl

end Sys2Proof.Machine
end

