-- ==== Sys2Proof/Laws/Streams.lean ====
section
/-! SUPPORT. What the stream operations can do: RxRead takes from the head or has no meaning, a byte that arrives
is appended or dropped, and the bound on RXQ. -/

namespace Sys2Proof.Machine

theorem takeBytes_eq (n : Nat) (q : List Byte) :
    takeBytes n q = if n ≤ q.length then some (q.take n, q.drop n) else none := by
  induction n generalizing q with
  | zero => simp [takeBytes]
  | succ n ih =>
    cases q with
    | nil => simp [takeBytes]
    | cons b q =>
      rw [takeBytes, ih]
      by_cases h : n ≤ q.length <;> simp [h]

/-- RxRead (R57): with enough bytes, the first `n` and the state without them. -/
theorem rxRead_eq (n : Nat) (s : State) :
    rxRead n s = if n ≤ rxAvail s then some (s.rxq.take n, s.setRxq (s.rxq.drop n)) else none := by
  simp only [rxRead, takeBytes_eq, rxAvail]
  by_cases h : n ≤ s.rxq.length <;> simp [h]

theorem rxRead_one (s : State) :
    rxRead 1 s = match s.rxq with
      | b :: q => some ([b], s.setRxq q)
      | [] => none := by
  cases h : s.rxq <;> simp [rxRead_eq, rxAvail, h]

theorem rxRead_two (s : State) :
    rxRead 2 s = match s.rxq with
      | b0 :: b1 :: q => some ([b0, b1], s.setRxq q)
      | _ => none := by
  rcases h : s.rxq with _ | ⟨b0, _ | ⟨b1, q⟩⟩ <;> simp [rxRead_eq, rxAvail, h]

theorem rxRead_four (s : State) :
    rxRead 4 s = match s.rxq with
      | b0 :: b1 :: b2 :: b3 :: q => some ([b0, b1, b2, b3], s.setRxq q)
      | _ => none := by
  rcases h : s.rxq with _ | ⟨b0, _ | ⟨b1, _ | ⟨b2, _ | ⟨b3, q⟩⟩⟩⟩ <;> simp [rxRead_eq, rxAvail, h]

/-- A byte that arrives is appended or dropped; nothing else changes (R60, R192, R198). -/
theorem peerArrive_cases (s : State) (b : Byte) :
    (s.peerArrive b = s.setRxq (s.rxq ++ [b]) ∧ transportDeaf s = false ∧ rxHasRoom s = true) ∨
    (s.peerArrive b = s ∧ (transportDeaf s = true ∨ rxHasRoom s = false)) := by
  unfold State.peerArrive
  cases transportDeaf s <;> cases rxHasRoom s <;> simp

end Sys2Proof.Machine
end

