-- ==== Sys2Proof/Laws/Exec.lean ====
section
/-! SUPPORT. What a step can do, said once: the effects of the rules as one inductive relation, and the inversion
of exec, of each agent's turn and of step. -/

namespace Sys2Proof.Machine

/-- The effects the framer's and the host's steps can have, one constructor per rule of spec 40, 42 and 43. -/
inductive Effect (s : State) : State → Prop
  /-- Nothing is enabled (R10, R152, R165). -/
  | stay : Effect s s
  /-- R111. -/
  | transmitSentinel : s.phase = .hsSend →
      Effect s (((s.txWrite [Config.sentinel]).setHsCount (hsCountNext s.hsCount)).setPhase .hsScan)
  /-- R112. -/
  | scanEmpty : s.phase = .hsScan → s.rxq = [] →
      Effect s ((s.setHsTimer (hsIntervalTicks s.params)).setPhase .hsWait)
  /-- R113. -/
  | sentinelSeen (q : List Byte) : s.phase = .hsScan → s.rxq = Config.sentinel :: q →
      Effect s (((s.setRxq q).setSync true).finish .ok)
  /-- R114. -/
  | byteDropped (b : Byte) (q : List Byte) : s.phase = .hsScan → s.rxq = b :: q → b ≠ Config.sentinel →
      Effect s ((s.setRxq q).setPhase .hsScan)
  /-- R115. -/
  | intervalOver : s.phase = .hsWait → s.hsTimer = 0 → timeoutReached s = false →
      Effect s (s.setPhase .hsSend)
  /-- R116. -/
  | timedOut : s.phase = .hsWait → s.hsTimer = 0 → timeoutReached s = true →
      Effect s (s.finish .handshakeTimeout)
  /-- R166. -/
  | opened : s.phase = .idle →
      Effect s ((((s.setSync false).configure Config.linkRate).setHsCount 0).setPhase .hsSend)
  /-- R170 to R172. -/
  | sendRefused (key : Key) (tag : Tag) (v : Value) (c : ResultCode) : s.phase = .idle →
      sendCheck (s.latchSend key tag v) = some c → Effect s ((s.latchSend key tag v).finish c)
  /-- R167. -/
  | integerSent (key : Key) (v : Value) : s.phase = .idle → s.sync = true → parity key = false →
      key ≠ Config.keyNone →
      Effect s (((s.latchSend key .integer v).txWrite (integerFrame key (integerOf v))).finish .ok)
  /-- R168. -/
  | floatSent (key : Key) (v : Value) : s.phase = .idle → s.sync = true → parity key = true →
      Effect s (((s.latchSend key .float v).txWrite (floatFrame key v)).finish .ok)
  /-- R170 for RECV. -/
  | recvRefused : s.phase = .idle → s.sync = false → Effect s (s.finish .notSynchronized)
  /-- R146. -/
  | tooFewBytes : s.phase = .idle → s.sync = true → s.rxq.length < 2 →
      Effect s ((s.latchResult Config.keyNone .integer 0).finish .noMessage)
  /-- R147, R148. -/
  | keyZero (b0 b1 : Byte) (q : List Byte) : s.phase = .idle → s.sync = true → s.rxq = b0 :: b1 :: q →
      halfOfBytes b0 b1 = Config.keyNone →
      Effect s (((s.setRxq q).latchResult Config.keyNone .integer 0).finish .noMessage)
  /-- R147, R149. -/
  | frameRecognized (b0 b1 : Byte) (q : List Byte) : s.phase = .idle → s.sync = true → s.rxq = b0 :: b1 :: q →
      halfOfBytes b0 b1 ≠ Config.keyNone →
      Effect s (((s.setRxq q).setKeyReg (halfOfBytes b0 b1)).setPhase .rxWait)
  /-- R150. -/
  | integerTaken (b2 b3 : Byte) (q : List Byte) : s.phase = .rxWait → parity s.keyReg = false →
      s.rxq = b2 :: b3 :: q →
      Effect s (((s.setRxq q).latchResult s.keyReg .integer (resultOfInteger (halfOfBytes b2 b3))).finish .ok)
  /-- R151. -/
  | floatTaken (b2 b3 b4 b5 : Byte) (q : List Byte) : s.phase = .rxWait → parity s.keyReg = true →
      s.rxq = b2 :: b3 :: b4 :: b5 :: q →
      Effect s (((s.setRxq q).latchResult s.keyReg .float (wordOfBytes b2 b3 b4 b5)).finish .ok)
  /-- R173. -/
  | reservedOpcode : s.phase = .idle → Effect s (s.finish .illegalOp)

/-! ### Each meaning: it answers next, with one of the effects -/

theorem execHsTx_effect (s : State) : ∃ t, execHsTx s = .next t ∧ Effect s t := by
  unfold execHsTx
  split
  · exact ⟨_, rfl, .transmitSentinel ‹_›⟩
  · exact ⟨_, rfl, .stay⟩

theorem execHsSentinel_effect (s : State) : ∃ t, execHsSentinel s = .next t ∧ Effect s t := by
  unfold execHsSentinel
  rw [rxRead_one]
  split
  · rcases h : s.rxq with _ | ⟨b, q⟩
    · exact ⟨_, rfl, .stay⟩
    · by_cases hb : b = Config.sentinel
      · simp only [hb, if_true]
        exact ⟨_, rfl, .sentinelSeen q ‹_› (by rw [h, hb])⟩
      · simp only [hb, if_false]
        exact ⟨_, rfl, .stay⟩
  · exact ⟨_, rfl, .stay⟩

theorem execHsOther_effect (other : Byte) (s : State) :
    ∃ t, execHsOther other s = .next t ∧ Effect s t := by
  unfold execHsOther
  rw [rxRead_one]
  split
  · rcases h : s.rxq with _ | ⟨b, q⟩
    · exact ⟨_, rfl, .stay⟩
    · by_cases hb : b = other ∧ b ≠ Config.sentinel
      · simp only [if_pos hb]
        exact ⟨_, rfl, .byteDropped b q ‹_› h hb.2⟩
      · simp only [if_neg hb]
        exact ⟨_, rfl, .stay⟩
  · exact ⟨_, rfl, .stay⟩

theorem sequencerStep_effect (s : State) (h : fetchUnit s = none) : Effect s (sequencerStep s) := by
  unfold fetchUnit at h
  unfold sequencerStep
  cases hp : s.phase <;> simp only [hp] at h ⊢
  case idle => exact .stay
  case hsSend => exact .stay
  case rxWait => exact .stay
  case hsScan =>
    rcases hq : s.rxq with _ | ⟨b, q⟩
    · exact .scanEmpty hp hq
    · simp [hq] at h
  case hsWait =>
    unfold hsWaitOver
    split
    · cases ht : timeoutReached s
      · exact .intervalOver hp ‹_› ht
      · exact .timedOut hp ‹_› ht
    · exact .stay

theorem execOpen_effect (s : State) : ∃ t, execOpen s = .next t ∧ Effect s t := by
  unfold execOpen
  split
  · exact ⟨_, rfl, .opened ‹_›⟩
  · exact ⟨_, rfl, .stay⟩

/-- The checks of a send that goes through (R170 to R172). -/
theorem sendCheck_none {s : State} (h : sendCheck s = none) :
    s.sync = true ∧ parity s.txKey = s.txTag.bit ∧ s.txKey ≠ Config.keyNone := by
  unfold sendCheck at h
  cases hs : s.sync <;> simp only [hs, Bool.not_true, Bool.not_false, if_true, Bool.false_eq_true, if_false,
    reduceCtorEq] at h
  by_cases hp : parity s.txKey = s.txTag.bit
  · by_cases hk : s.txKey = Config.keyNone
    · rw [if_pos hk] at h
      simp [hp] at h
    · exact ⟨rfl, hp, hk⟩
  · simp [hp] at h

theorem sendLatched_effect (key : Key) (tag : Tag) (v : Value) (s : State) (hp : s.phase = .idle) :
    Effect s (sendLatched (s.latchSend key tag v)) := by
  unfold sendLatched
  split
  · next c h => exact .sendRefused key tag v c hp h
  · next h =>
    obtain ⟨hs, hpar, hk⟩ := sendCheck_none h
    rw [encodePayload_eq, if_pos hpar]
    cases tag
    · exact .integerSent key v hp hs hpar hk
    · exact .floatSent key v hp hs hpar

theorem execSendI_effect (key : Key) (v : Value) (s : State) :
    ∃ t, execSendI key v s = .next t ∧ Effect s t := by
  unfold execSendI
  split
  · exact ⟨_, rfl, sendLatched_effect key .integer v s ‹_›⟩
  · exact ⟨_, rfl, .stay⟩

theorem execSendF_effect (key : Key) (v : Value) (s : State) :
    ∃ t, execSendF key v s = .next t ∧ Effect s t := by
  unfold execSendF
  split
  · exact ⟨_, rfl, sendLatched_effect key .float v s ‹_›⟩
  · exact ⟨_, rfl, .stay⟩

theorem execCmdReserved_effect (s : State) : ∃ t, execCmdReserved s = .next t ∧ Effect s t := by
  unfold execCmdReserved
  split
  · exact ⟨_, rfl, .reservedOpcode ‹_›⟩
  · exact ⟨_, rfl, .stay⟩

/-- The key stage (R146 to R149) by the bytes buffered. -/
theorem keyStage_eq (s : State) (hp : s.phase = .idle) (hs : s.sync = true) :
    keyStage s = match s.rxq with
      | b0 :: b1 :: q =>
        if halfOfBytes b0 b1 = Config.keyNone then .next (s.setRxq q).completeNoMessage
        else .next (recognizeFrame (halfOfBytes b0 b1) (s.setRxq q))
      | _ => .next s.completeNoMessage := by
  unfold keyStage
  rw [rxRead_two]
  rcases s.rxq with _ | ⟨b0, _ | ⟨b1, q⟩⟩
  · rfl
  · rfl
  · have hc : inKeyStage (s.setRxq q) = true := by simp [inKeyStage, hp, hs]
    cases hk : classifyKey (halfOfBytes b0 b1)
    · have h0 := classifyKey_reserved.mp hk
      have hr : classifyKey Config.keyNone = .reserved := by decide
      simp only [h0, hr, if_true]
      simp [execDecKey0, hc]
    · obtain ⟨h0, h1⟩ := classifyKey_integer.mp hk
      simp [hk, h0, h1, execDecInt, hc]
    · have h1 := classifyKey_float.mp hk
      have h0 : halfOfBytes b0 b1 ≠ Config.keyNone := by
        intro h
        rw [classifyKey_reserved.mpr h] at hk
        cases hk
      simp only [hk, h0, if_false]
      simp [execDecFlt, h1, hc]

theorem execRecv_effect (s : State) : ∃ t, execRecv s = .next t ∧ Effect s t := by
  unfold execRecv
  split
  · next hp =>
    split
    · next hs =>
      rw [keyStage_eq s hp hs]
      split
      · next b0 b1 q hq =>
        split
        · next h0 => exact ⟨_, rfl, .keyZero b0 b1 q hp hs hq h0⟩
        · next h0 => exact ⟨_, rfl, .frameRecognized b0 b1 q hp hs hq h0⟩
      · next hq =>
        refine ⟨_, rfl, .tooFewBytes hp hs ?_⟩
        rcases h : s.rxq with _ | ⟨b0, _ | ⟨b1, q⟩⟩
        · simp
        · simp
        · exact absurd h (hq b0 b1 q)
    · next hs => exact ⟨_, rfl, .recvRefused hp (by simpa using hs)⟩
  · exact ⟨_, rfl, .stay⟩

theorem takeInteger_effect (s : State) (hp : s.phase = .rxWait) (hk : parity s.keyReg = false) :
    Effect s (takeInteger s) := by
  unfold takeInteger
  rw [rxRead_two]
  rcases h : s.rxq with _ | ⟨b2, _ | ⟨b3, q⟩⟩
  · exact .stay
  · exact .stay
  · exact .integerTaken b2 b3 q hp hk h

theorem takeFloat_effect (s : State) (hp : s.phase = .rxWait) (hk : parity s.keyReg = true) :
    Effect s (takeFloat s) := by
  unfold takeFloat
  rw [rxRead_four]
  rcases h : s.rxq with _ | ⟨b2, _ | ⟨b3, _ | ⟨b4, _ | ⟨b5, q⟩⟩⟩⟩
  · exact .stay
  · exact .stay
  · exact .stay
  · exact .stay
  · exact .floatTaken b2 b3 b4 b5 q hp hk h

/-- DEC.INT in RX_WAIT (R150, R152), with the key in KEYREG. -/
theorem execDecInt_rxWait (s : State) (hp : s.phase = .rxWait) (hk : parity s.keyReg = false) :
    execDecInt s.keyReg s = .next (takeInteger s) := by
  simp [execDecInt, hk, inKeyStage, inValueStage, hp]

/-- DEC.FLT in RX_WAIT (R151, R152), with the key in KEYREG. -/
theorem execDecFlt_rxWait (s : State) (hp : s.phase = .rxWait) (hk : parity s.keyReg = true) :
    execDecFlt s.keyReg s = .next (takeFloat s) := by
  simp [execDecFlt, hk, inKeyStage, inValueStage, hp]

/-! ### The turns -/

/-- The framer's turn answers next, with one of the effects. -/
theorem framerTurn_effect (s : State) : ∃ t, framerTurn s = .next t ∧ Effect s t := by
  unfold framerTurn
  split
  · next i hi =>
    unfold fetchUnit at hi
    cases hp : s.phase <;> simp only [hp, Option.some.injEq, reduceCtorEq] at hi
    case hsSend => subst hi; exact execHsTx_effect s
    case hsScan =>
      rcases hq : s.rxq with _ | ⟨b, q⟩
      · simp [hq] at hi
      · simp only [hq, Option.some.injEq, decodeHandshakeByte] at hi
        split at hi
        · subst hi; exact execHsSentinel_effect s
        · subst hi; exact execHsOther_effect b s
    case rxWait =>
      cases hk : parity s.keyReg <;> simp only [hk, if_true, Bool.false_eq_true, if_false] at hi
      · subst hi
        exact ⟨_, execDecInt_rxWait s hp hk, takeInteger_effect s hp hk⟩
      · subst hi
        exact ⟨_, execDecFlt_rxWait s hp hk, takeFloat_effect s hp hk⟩
  · next h => exact ⟨_, rfl, sequencerStep_effect s h⟩

/-- In IDLE the framer has no step (R10). -/
theorem framerTurn_idle (s : State) (h : s.phase = .idle) : framerTurn s = .next s := by
  simp [framerTurn, fetchUnit, sequencerStep, h]

/-- A host command answers next, with one of the effects. -/
theorem execCommand_effect (cw : CommandWord) (s : State) :
    ∃ t, exec (decodeCommand cw) s = .next t ∧ Effect s t := by
  unfold decodeCommand
  split
  · exact execOpen_effect s
  · split
    · split
      · exact execSendF_effect _ _ s
      · exact execSendI_effect _ _ s
    · split
      · exact execRecv_effect s
      · exact execCmdReserved_effect s

/-- What a turn can do to the state `s` it is taken in. -/
inductive TurnEffect (s : State) : Turn → State → Prop
  | framer (t : State) : (s.phase = .idle → t = s) → Effect s t → TurnEffect s .framer t
  | command (cw : CommandWord) (cs : List CommandWord) (t : State) : s.phase = .idle → s.hostCmds = cw :: cs →
      exec (decodeCommand cw) (s.setHostCmds cs) = .next t → Effect (s.setHostCmds cs) t → TurnEffect s .host t
  | hostWaits : (s.phase ≠ .idle ∨ s.hostCmds = []) → TurnEffect s .host s
  | withdraw : TurnEffect s .withdraw (s.setHostCmds s.hostCmds.tail)
  | peer (b : Byte) : TurnEffect s (.peer b) (s.peerArrive b)
  | time (line : Bool) : TurnEffect s (.time line) (timeTick line s)
  | reset (q : Option (List Byte)) : TurnEffect s (.reset q) (applyReset q s)

theorem takeTurn_effect (turn : Turn) (s : State) :
    ∃ t, takeTurn turn s = .next t ∧ TurnEffect s turn t := by
  cases turn with
  | framer =>
    obtain ⟨t, ht, he⟩ := framerTurn_effect s
    refine ⟨t, ht, .framer t (fun hp => ?_) he⟩
    rw [framerTurn_idle s hp] at ht
    cases ht
    rfl
  | host =>
    unfold takeTurn hostTurn fetchCommand
    by_cases hp : s.phase = .idle
    · rcases hc : s.hostCmds with _ | ⟨cw, cs⟩
      · simp only [hp, if_true]
        exact ⟨s, rfl, .hostWaits (.inr hc)⟩
      · simp only [hp, if_true]
        obtain ⟨t, ht, he⟩ := execCommand_effect cw (s.setHostCmds cs)
        exact ⟨t, ht, .command cw cs t hp hc ht he⟩
    · simp only [hp, if_false]
      exact ⟨s, rfl, .hostWaits (.inl hp)⟩
  | withdraw => exact ⟨_, rfl, .withdraw⟩
  | peer b => exact ⟨_, rfl, .peer b⟩
  | time line => exact ⟨_, rfl, .time line⟩
  | reset q => exact ⟨_, rfl, .reset q⟩

/-- The inversion of step: what it answered is the effect of the turn that was next. -/
theorem step_effect {s t : State} (h : step s = .next t) :
    TurnEffect (nextTurn s).2 (nextTurn s).1 t := by
  obtain ⟨t', ht, he⟩ := takeTurn_effect (nextTurn s).1 (nextTurn s).2
  rw [step, ht] at h
  cases h
  exact he

/-! ### The next turn and a tick -/

theorem nextTurn_cons {s : State} {turn : Turn} {ts : List Turn} (h : s.turns = turn :: ts) :
    nextTurn s = (turn, s.setTurns ts) := by
  simp [nextTurn, h]

theorem nextTurn_nil {s : State} (h : s.turns = []) : nextTurn s = (defaultTurn s, s) := by
  simp [nextTurn, h]

/-- Taking the turn off the list changes nothing else. -/
theorem nextTurn_snd (s : State) : ∃ ts, (nextTurn s).2 = s.setTurns ts := by
  rcases h : s.turns with _ | ⟨turn, ts⟩
  · refine ⟨[], ?_⟩
    rw [nextTurn_nil h]
    cases s
    simp_all [State.setTurns]
  · exact ⟨ts, by rw [nextTurn_cons h]⟩

/-- Without the wrapper a tick touches HSTIMER alone. -/
theorem timeTick_noWrapper (line : Bool) (s : State) (h : s.params.uartWrapper = false) :
    timeTick line s = s.setHsTimer (if s.phase = .hsWait then s.hsTimer - 1 else s.hsTimer) := by
  have same : s.setHsTimer s.hsTimer = s := by cases s; rfl
  unfold timeTick
  by_cases hp : s.phase = .hsWait
  · by_cases ht : s.hsTimer = 0
    · have same0 : s.setHsTimer 0 = s := by rw [← ht, same]
      simp [uartTick, h, hp, ht, same0]
    · simp [uartTick, h, hp, ht]
  · simp [uartTick, h, hp, same]

theorem setRxq_self (s : State) (q : List Byte) (h : s.rxq = q) : s = s.setRxq q := by
  subst h
  rfl

/-- What a tick may change: HSTIMER, the wrapper's line-level state, RXQ by one arriving byte. -/
theorem timeTick_changes (line : Bool) (s : State) :
    ∃ n u q, timeTick line s = ((s.setHsTimer n).setUart u).setRxq q ∧
      (q = s.rxq ∨ ∃ b, q = s.rxq ++ [b] ∧ rxHasRoom s = true) := by
  have base : ∀ s1 : State, (∃ n, s1 = s.setHsTimer n) →
      ∃ n u q, uartTick line s1 = ((s.setHsTimer n).setUart u).setRxq q ∧
        (q = s.rxq ∨ ∃ b, q = s.rxq ++ [b] ∧ rxHasRoom s = true) := by
    rintro s1 ⟨n, rfl⟩
    have tx : ∃ u, uartTransmit (s.setHsTimer n) = (s.setHsTimer n).setUart u := by
      unfold uartTransmit
      split
      · split
        · exact ⟨s.uart, by cases s; rfl⟩
        · exact ⟨_, rfl⟩
      · split <;> exact ⟨_, rfl⟩
    unfold uartTick
    split
    · split
      · exact ⟨n, _, s.rxq, setRxq_self _ _ rfl, .inl rfl⟩
      · obtain ⟨u, hu⟩ := tx
        rw [hu]
        unfold uartReceive
        split
        · split
          · exact ⟨n, _, s.rxq, setRxq_self _ _ rfl, .inl rfl⟩
          · exact ⟨n, _, s.rxq, setRxq_self _ _ rfl, .inl rfl⟩
        · split
          · split
            · exact ⟨n, _, s.rxq, setRxq_self _ _ rfl, .inl rfl⟩
            · next bits _ _ _ =>
              rcases peerArrive_cases
                (((s.setHsTimer n).setUart u).setUart
                  { ((s.setHsTimer n).setUart u).uart with rxPrev := line, rxBits := none, rxTicks := 0 })
                (byteOfBits (bits ++ [line])) with ⟨h, _, hr⟩ | ⟨h, _⟩
              · exact ⟨n, _, _, h, .inr ⟨_, rfl, hr⟩⟩
              · exact ⟨n, _, s.rxq, h.trans (setRxq_self _ _ rfl), .inl rfl⟩
          · exact ⟨n, _, s.rxq, setRxq_self _ _ rfl, .inl rfl⟩
    · exact ⟨n, s.uart, s.rxq, by cases s; rfl, .inl rfl⟩
  unfold timeTick
  split
  · exact base _ ⟨_, rfl⟩
  · exact base s ⟨s.hsTimer, by cases s; rfl⟩

end Sys2Proof.Machine
end

