-- ==== Sys2Proof/Laws/Turns.lean ====
section
/-! SUPPORT. What each host command does by its row, what a tick keeps, where a reset turn comes from, and the
unfolding of a run. -/

namespace Sys2Proof.Machine

/-- A reset never is the default turn: it stands at the head of the list. -/
theorem nextTurn_reset {s : State} {q : Option (List Byte)} (h : (nextTurn s).1 = .reset q) :
    ∃ ts, s.turns = .reset q :: ts ∧ (nextTurn s).2 = s.setTurns ts := by
  rcases ht : s.turns with _ | ⟨turn, ts⟩
  · rw [nextTurn_nil ht] at h
    simp only [defaultTurn] at h
    split at h
    · cases h
    · split at h <;> cases h
  · rw [nextTurn_cons ht] at h ⊢
    exact ⟨ts, by rw [show turn = .reset q from h], rfl⟩

/-- A command accepted in IDLE, by its row (R166 to R169, R173). -/
theorem execCommand_cases {cw : CommandWord} {s t : State} (hp : s.phase = .idle)
    (hx : exec (decodeCommand cw) s = .next t) :
    (decodeCommand cw = .openLink ∧
      t = (((s.setSync false).configure Config.linkRate).setHsCount 0).setPhase .hsSend) ∨
    (∃ k v, decodeCommand cw = .sendI k v ∧ t = sendLatched (s.latchSend k .integer v)) ∨
    (∃ k v, decodeCommand cw = .sendF k v ∧ t = sendLatched (s.latchSend k .float v)) ∨
    (decodeCommand cw = .recv ∧ execRecv s = .next t) ∨
    (decodeCommand cw = .cmdReserved ∧ t = s.raise .illegalOp) := by
  revert hx
  unfold decodeCommand
  split
  · intro hx
    simp only [exec, execOpen, hp, if_true] at hx
    cases hx
    exact .inl ⟨rfl, rfl⟩
  · split
    · split
      · intro hx
        simp only [exec, execSendF, hp, if_true] at hx
        cases hx
        exact .inr (.inr (.inl ⟨_, _, rfl, rfl⟩))
      · intro hx
        simp only [exec, execSendI, hp, if_true] at hx
        cases hx
        exact .inr (.inl ⟨_, _, rfl, rfl⟩)
    · split
      · intro hx
        exact .inr (.inr (.inr (.inl ⟨rfl, hx⟩)))
      · intro hx
        simp only [exec, execCmdReserved, hp, if_true] at hx
        cases hx
        exact .inr (.inr (.inr (.inr ⟨rfl, rfl⟩)))

/-- A send ends in IDLE and keeps the latches it was given. -/
theorem sendLatched_keeps (s : State) :
    (sendLatched s).txKey = s.txKey ∧ (sendLatched s).txTag = s.txTag ∧ (sendLatched s).txVal = s.txVal ∧
      (sendLatched s).phase = .idle ∧ (sendLatched s).hostCmds = s.hostCmds := by
  unfold sendLatched
  repeat' split
  all_goals exact ⟨rfl, rfl, rfl, rfl, rfl⟩

/-- RECV keeps the operand latches and ends in IDLE, or in RX_WAIT of a synchronized session. -/
theorem execRecv_keeps {s t : State} (hp : s.phase = .idle) (h : execRecv s = .next t) :
    t.txKey = s.txKey ∧ t.txTag = s.txTag ∧ t.txVal = s.txVal ∧ t.hostCmds = s.hostCmds ∧
      (t.phase = .idle ∨ (t.phase = .rxWait ∧ s.sync = true)) := by
  simp only [execRecv, hp, if_true] at h
  split at h
  · next hs =>
    rw [keyStage_eq _ hp hs] at h
    repeat' split at h
    all_goals (cases h; simp [State.completeNoMessage, recognizeFrame, hs])
  · cases h
    simp

/-- A tick keeps PHASE. -/
theorem timeTick_phase (line : Bool) (s : State) : (timeTick line s).phase = s.phase := by
  obtain ⟨n, u, q, e, _⟩ := timeTick_changes line s
  rw [e]
  rfl

/-- The wrapper's tick keeps HSTIMER. -/
theorem uartTick_hsTimer (line : Bool) (s : State) : (uartTick line s).hsTimer = s.hsTimer := by
  have tx : (uartTransmit s).hsTimer = s.hsTimer := by
    unfold uartTransmit
    repeat' split
    all_goals rfl
  unfold uartTick
  split
  · split
    · rfl
    · unfold uartReceive
      repeat' split
      all_goals first
        | exact tx
        | (simp only [State.peerArrive]; split <;> exact tx)
  · rfl

/-- A tick counts HSTIMER down in HS_WAIT and nowhere else (R32, R115). -/
theorem timeTick_hsTimer (line : Bool) (s : State) :
    (timeTick line s).hsTimer = if s.phase = .hsWait then s.hsTimer - 1 else s.hsTimer := by
  unfold timeTick
  rw [uartTick_hsTimer]
  by_cases hp : s.phase = .hsWait
  · by_cases ht : s.hsTimer = 0 <;> simp [hp, ht]
  · simp [hp]

theorem runFor_succ {s s' : State} (n : Nat) (h : step s = .next s') : runFor (n + 1) s = runFor n s' := by
  simp [runFor, h]

/-- A run of `m + n` steps is a run of `m` and then of `n`. -/
theorem runFor_add {s s' : State} (m n : Nat) (h : runFor m s = .next s') : runFor (m + n) s = runFor n s' := by
  induction m generalizing s with
  | zero =>
    cases h
    rw [Nat.zero_add]
  | succ m ih =>
    rw [runFor] at h
    rw [Nat.succ_add, runFor]
    split at h
    · exact ih h
    · cases h
    · cases h

end Sys2Proof.Machine
end

