-- ==== Sys2Proof/Machine/Clocked.lean ====
section
/-! DEFINITION. The block on its clocked ports, one edge at a time (spec 44 R191, 20 R58, 60 R220): a step that moves
bytes takes one transfer per byte, and its registers are those of the stream-level step after the last one. The
stream level stays the normative one (00 R2); `step` does not use this file. -/

namespace Sys2Proof.Machine

/-- The transfers of one stream-level step that are still to come (R58: "the framer holds the remaining bytes"). -/
structure Transfer where
  /-- The accepted command whose step it is; `none` for a step of the framer's own. -/
  cmd : Option CommandWord
  /-- The bytes still to be offered on `tx_data`, the current one first. -/
  tx : List Byte
  /-- How many bytes are still to be popped. -/
  pops : Nat
  /-- The bytes popped so far, oldest first. -/
  taken : List Byte
  deriving DecidableEq, Repr

/-- The block at its ports. The registers of `core` are those of the last step that ended; its streams move with
every transfer. -/
structure Clocked where
  core : State
  transfer : Option Transfer
  deriving DecidableEq, Repr

/-- Right after reset: no transfer in progress. -/
def Clocked.reset : Clocked := { core := State.reset, transfer := none }

/-- The stream-level step that an edge performs: the command's, or the framer's own. -/
def stepOf (cmd : Option CommandWord) (s : State) : Host.Outcome State Fault Refusal :=
  match cmd with
  | some cw => exec (decodeCommand cw) s
  | none => framerTurn s

/-- The end of a step: the registers are those of the stream-level step over the bytes taken, and TXQ is what the
transfers have made of it ("the state after the last transfer", R191). -/
def endTransfer (tr : Transfer) (s : State) : Host.Outcome Clocked Fault Refusal :=
  match stepOf tr.cmd (s.setRxq (tr.taken ++ s.rxq)) with
  | .next t => .next { core := { t with txq := s.txq }, transfer := none }
  | .fault f => .fault f
  | .refused r => .refused r

/-- After a transfer: the step ends with its last byte, or goes on. -/
def afterTransfer (tr : Transfer) (s : State) : Host.Outcome Clocked Fault Refusal :=
  if tr.tx = [] ∧ tr.pops = 0 then endTransfer tr s else .next { core := s, transfer := some tr }

/-- One edge of a step in progress: `tx_data` goes to TXQ when `tx_ready` is 1, and the framer waits when it is 0;
`rx_pop` removes the head of RXQ (R191). -/
def moveByte (txReady : Bool) (tr : Transfer) (s : State) : Host.Outcome Clocked Fault Refusal :=
  match tr.tx with
  | b :: rest =>
    if txReady then afterTransfer { tr with tx := rest } (s.txWrite [b])
    else .next { core := s, transfer := some tr }
  | [] =>
    match s.rxq with
    | b :: q => afterTransfer { tr with pops := tr.pops - 1, taken := tr.taken ++ [b] } (s.setRxq q)
    | [] => .next { core := s, transfer := some tr }

/-- An edge at which a step begins. A step that moves no byte takes this edge alone; otherwise its transfers come at
the next ones (DESIGN CHOICE, log 24). -/
def beginStep (cmd : Option CommandWord) (s : State) : Host.Outcome Clocked Fault Refusal :=
  match stepOf cmd s with
  | .next t =>
    let tx := t.txq.drop s.txq.length
    let pops := s.rxq.length - t.rxq.length
    if tx = [] ∧ pops = 0 then .next { core := t, transfer := none }
    else .next { core := s, transfer := some { cmd := cmd, tx := tx, pops := pops, taken := [] } }
  | .fault f => .fault f
  | .refused r => .refused r

/-- `tx_ready` at an edge, from the state before it: the wrapper's own where it is built (R194), otherwise the
port's. -/
def Clocked.txReady (c : Clocked) (e : EdgeInputs) : Bool :=
  if c.core.params.uartWrapper then wrapperReady c.core else e.txReady

/-- The host's or the framer's part of an edge: the transfer in progress, the command presented in IDLE, or the
framer's next step. -/
def clockedStep (txReady : Bool) (cmd : Option CommandWord) (transfer : Option Transfer) (s : State) :
    Host.Outcome Clocked Fault Refusal :=
  match transfer with
  | some tr => moveByte txReady tr s
  | none =>
    if s.phase = .idle then
      match cmd with
      | some cw => beginStep (some cw) s
      | none => .next { core := s, transfer := none }
    else beginStep none s

/-- The appends of an edge: the byte the peer hands over, and the tick, in which the wrapper's line may complete
one. -/
def arriveOnEdge (e : EdgeInputs) (s : State) : State :=
  timeTick e.line (match e.arrival with | some b => s.peerArrive b | none => s)

/-- One edge (R191) in the order of edgeTurns (R220; log 28). A reset drops the transfer in progress; what was already
taken or written stays so (R241). -/
def Clocked.edge (e : EdgeInputs) (c : Clocked) : Host.Outcome Clocked Fault Refusal :=
  if e.rst then .next { core := arriveOnEdge e (applyReset none c.core), transfer := none }
  else clockedStep (c.txReady e) e.cmd c.transfer (arriveOnEdge e c.core)

/-- `cmd_ready` (R191): PHASE = IDLE and no byte of a step still to be transferred. DESIGN CHOICE: the bytes a RECV
still has to pop keep it at 0 too, since the transfers of one step are not interleaved with another's (log 24). -/
def Clocked.cmdReady (c : Clocked) : Bool := c.transfer.isNone && Machine.cmdReady c.core

/-- The byte offered on `tx_data`; `tx_valid` is 1 when there is one. -/
def Clocked.txData (c : Clocked) : Option Byte := c.transfer.bind (fun tr => tr.tx.head?)

/-- `rx_pop`: the framer removes the head byte of RXQ at the coming edge. -/
def Clocked.rxPop (c : Clocked) : Bool :=
  match c.transfer with
  | some tr => tr.tx.isEmpty && decide (0 < tr.pops)
  | none => false

/-- The ports in the tick that follows the edge from `before` to `after` (R191). -/
def Clocked.ports (before after : Clocked) : Ports :=
  { after.core.ports with
    cmdReady := after.cmdReady
    rspValid := Machine.rspValid before.core after.core
    txValid := after.txData.isSome
    txData := after.txData
    rxPop := after.rxPop
    cfgValid := Machine.cfgValid before.core after.core }

end Sys2Proof.Machine
end

