-- ==== Sys2Proof/Laws/Clocked.lean ====
section
/-! SUPPORT. What an edge of the clocked ports can do: it always answers a next state, its steps have the effects of
the stream level, and a step ends on the ports with the registers of the stream-level step. -/

namespace Sys2Proof.Machine

/-- The step of an edge answers next, with one of the stream level's effects. -/
theorem stepOf_effect (cmd : Option CommandWord) (s : State) : ∃ t, stepOf cmd s = .next t ∧ Effect s t := by
  cases cmd with
  | some cw => exact execCommand_effect cw s
  | none => exact framerTurn_effect s

/-- The last transfer leaves the registers of the stream-level step and TXQ as the transfers made it (R191). -/
theorem endTransfer_eq (tr : Transfer) (s : State) :
    ∃ t, stepOf tr.cmd (s.setRxq (tr.taken ++ s.rxq)) = .next t ∧
      endTransfer tr s = .next { core := { t with txq := s.txq }, transfer := none } := by
  obtain ⟨t, ht, _⟩ := stepOf_effect tr.cmd (s.setRxq (tr.taken ++ s.rxq))
  exact ⟨t, ht, by simp [endTransfer, ht]⟩

theorem afterTransfer_next (tr : Transfer) (s : State) : ∃ c, afterTransfer tr s = .next c := by
  unfold afterTransfer
  split
  · obtain ⟨t, _, h⟩ := endTransfer_eq tr s
    exact ⟨_, h⟩
  · exact ⟨_, rfl⟩

/-- While `tx_ready` is 0 the framer holds its remaining bytes (R58). -/
theorem moveByte_stalls (tr : Transfer) (s : State) (h : tr.tx ≠ []) :
    moveByte false tr s = .next { core := s, transfer := some tr } := by
  cases hx : tr.tx with
  | nil => exact absurd hx h
  | cons b rest => simp [moveByte, hx]

theorem moveByte_next (ready : Bool) (tr : Transfer) (s : State) : ∃ c, moveByte ready tr s = .next c := by
  unfold moveByte
  split
  · split
    · exact afterTransfer_next _ _
    · exact ⟨_, rfl⟩
  · split
    · exact afterTransfer_next _ _
    · exact ⟨_, rfl⟩

/-- A step that moves no byte is the stream-level step, in one edge. -/
theorem beginStep_noBytes {cmd : Option CommandWord} {s t : State} (h : stepOf cmd s = .next t)
    (htx : t.txq = s.txq) (hrx : t.rxq = s.rxq) : beginStep cmd s = .next { core := t, transfer := none } := by
  simp [beginStep, h, htx, hrx]

theorem beginStep_next (cmd : Option CommandWord) (s : State) : ∃ c, beginStep cmd s = .next c := by
  obtain ⟨t, ht, _⟩ := stepOf_effect cmd s
  simp only [beginStep, ht]
  split <;> exact ⟨_, rfl⟩

theorem clockedStep_next (ready : Bool) (cmd : Option CommandWord) (transfer : Option Transfer) (s : State) :
    ∃ c, clockedStep ready cmd transfer s = .next c := by
  unfold clockedStep
  split
  · exact moveByte_next _ _ _
  · split
    · split
      · exact beginStep_next _ _
      · exact ⟨_, rfl⟩
    · exact beginStep_next _ _

/-- While the wrapper cannot take a byte, an edge leaves the transfer as it is and only the edge's appends happen
(R194). -/
theorem edge_wrapperStalls (e : EdgeInputs) (c : Clocked) (tr : Transfer) (hr : e.rst = false)
    (hw : c.core.params.uartWrapper = true) (hb : wrapperReady c.core = false) (ht : c.transfer = some tr)
    (hx : tr.tx ≠ []) : c.edge e = .next { core := arriveOnEdge e c.core, transfer := some tr } := by
  simp [Clocked.edge, hr, Clocked.txReady, hw, hb, ht, clockedStep, moveByte_stalls tr _ hx]

/-- No edge stops the block. -/
theorem edge_next (e : EdgeInputs) (c : Clocked) : ∃ c', c.edge e = .next c' := by
  unfold Clocked.edge
  split
  · exact ⟨_, rfl⟩
  · exact clockedStep_next _ _ _ _

end Sys2Proof.Machine
end

