-- ==== Sys2Proof/Laws/PerInstr.lean ====
section
/-! SUPPORT. Statements made per instruction: the length in bytes of each row's word (spec 20 R55, 30 R80, R95). -/

namespace Sys2Proof.Laws.CanonicalLength

/-- The bytes a unit of each row has: a key 2, a handshake byte or the sentinel 1, an integer frame 4, a float frame
6, a command word 7. -/
def unitBytes : Instr → Nat
  | .decKey0 | .decInt _ | .decFlt _ => 2
  | .hsSentinel | .hsOther _ | .hsTx => 1
  | .encInt _ _ => 4
  | .encFlt _ _ => 6
  | .openLink | .sendI _ _ | .sendF _ _ | .recv | .cmdReserved => 7

/-- The encoder writes exactly the row's bytes. -/
def Statement (i : Instr) : Prop := (encode i).length = unitBytes i

theorem decKey0 : Statement .decKey0 := rfl
theorem decInt (key : Key) : Statement (.decInt key) := rfl
theorem decFlt (key : Key) : Statement (.decFlt key) := rfl
theorem hsSentinel : Statement .hsSentinel := rfl
theorem hsOther (b : Byte) : Statement (.hsOther b) := rfl
theorem encInt (key : Key) (val : IntPattern) : Statement (.encInt key val) := rfl
theorem encFlt (key : Key) (pattern : Value) : Statement (.encFlt key pattern) := rfl
theorem hsTx : Statement .hsTx := rfl
theorem openLink : Statement .openLink := rfl
theorem sendI (key : Key) (val : Value) : Statement (.sendI key val) := rfl
theorem sendF (key : Key) (val : Value) : Statement (.sendF key val) := rfl
theorem recv : Statement .recv := rfl
theorem cmdReserved : Statement .cmdReserved := rfl

end Sys2Proof.Laws.CanonicalLength
end

