-- ==== Sys2Proof/Tests/Slice0.lean ====
section
/-! SUPPORT. Own tests: the WellFormed smoke test, words written out from the spec's encodings, one step per
instruction from the vectors of spec 95 and the examples of the rules, and a witness of the hypotheses of every
obligation that has some. -/

namespace Sys2Proof.Tests

open Sys2Proof.Machine

/-! ### Small states -/

/-- A chip with a short handshake interval (F_CLK = 10 Hz gives one tick) and no wrapper. -/
def chip : Params :=
  { fClk := 10, hsTimeoutCount := 0, rxDepth := none, rxCountW := 3, uartWrapper := false, txBuffer := 0 }

/-- A state of that chip: the registers of reset but for the ones given. -/
def st (sync : Bool) (phase : Phase) (rxq : List Byte) : State :=
  { State.reset with sync := sync, phase := phase, rxq := rxq, baud := 19200, params := chip }

/-- A synchronized session in IDLE with these bytes buffered. -/
def session (rxq : List Byte) : State := st true .idle rxq

/-- RX_WAIT with this key. -/
def waiting (key : Key) (rxq : List Byte) : State := { st true .rxWait rxq with keyReg := key }

/-- The same state with these turns next. -/
def turning (s : State) (ts : List Turn) : State := { s with turns := ts }

/-- The same state with these commands presented. -/
def asking (s : State) (cs : List CommandWord) : State := { s with hostCmds := cs }

/-- The same state with the wrapper built and this F_CLK. -/
def wired (s : State) (fClk : Nat) : State := { s with params := { chip with fClk := fClk, uartWrapper := true } }

/-- The next state, if there is one. -/
def next? (o : Host.Outcome State Fault Refusal) : Option State :=
  match o with
  | .next s => some s
  | .fault _ => none
  | .refused _ => none

/-- One observation of the next state. -/
def sees {α : Type} (o : Host.Outcome State Fault Refusal) (f : State → α) : Option α := (next? o).map f

/-! ### WellFormed refuses each ill-formed term (R90, R92, R97, R131, R132) -/

theorem test_wf_refuses_decInt_reserved : (Instr.decInt 0).wellFormed = false := by decide
theorem test_wf_refuses_decInt_odd : (Instr.decInt 3).wellFormed = false := by decide
theorem test_wf_refuses_decFlt_even : (Instr.decFlt 2).wellFormed = false := by decide
theorem test_wf_refuses_hsOther_sentinel : (Instr.hsOther 0x24).wellFormed = false := by decide
theorem test_wf_refuses_encInt_odd : (Instr.encInt 3 300).wellFormed = false := by decide
theorem test_wf_refuses_encFlt_even : (Instr.encFlt 2 0x3FC00000).wellFormed = false := by decide

/-! ### Words written out from the spec's encodings -/

/-- The key rows of R97: 0x0000, an even key with a low byte of 0 (R91), the largest odd key. -/
theorem test_decode_keys :
    decodeTableWord 16 0x0000 = some .decKey0 ∧ decodeTableWord 16 0x0100 = some (.decInt 0x0100) ∧
      decodeTableWord 16 0xFFFF = some (.decFlt 0xFFFF) := by decide

/-- The handshake rows of R97: 0x24, and its neighbours. -/
theorem test_decode_handshake :
    decodeTableWord 8 0x24 = some .hsSentinel ∧ decodeTableWord 8 0x25 = some (.hsOther 0x25) ∧
      decodeTableWord 8 0x00 = some (.hsOther 0) := by decide

/-- FI of R83, bit by bit: value 300, key 2; FF: pattern 0x3FC00000, key 3; the sentinel of R80. -/
theorem test_decode_outbound :
    decodeTableWord 32 0b0000000100101100_0000000000000010 = some (.encInt 2 300) ∧
      decodeTableWord 48 0b00111111110000000000000000000000_0000000000000011 = some (.encFlt 3 0x3FC00000) ∧
      decode .encode [0x24] = .ok .hsTx := by decide

/-- CMD of R95, bit by bit: val, key, tag, op of vector S1; and the words of S2. -/
theorem test_decode_sends :
    decodeTableWord 56 0b00000000000000000000000100101100_0000000000000010_0_01 = some (.sendI 2 300) ∧
      decodeTableWord 56 0x9600011 = some (.sendI 2 300) ∧
      decodeTableWord 56 0x1FE000000001D = some (.sendF 3 0x3FC00000) := by decide

/-- Ignored fields of OPEN and RECV (95, 2.2), the reserved opcode with junk fields (X10). -/
theorem test_decode_ignored_fields :
    decodeTableWord 56 0x6F56DF77891A4 = some .openLink ∧ decodeTableWord 56 0x7FFFFFFFFFFFE = some .recv ∧
      decodeTableWord 56 0x7FFFFFFFFFFFF = some .cmdReserved := by decide

/-- Rejections by name: an odd key in four bytes, an even one in six, a byte that is no outbound unit, three bytes,
bits above CW[50]. -/
theorem test_decode_rejects :
    decode .encode [0x03, 0x00, 0x2C, 0x01] = .error .oddKeyInIntegerFrame ∧
      decode .encode [0x02, 0, 0, 0, 0, 0] = .error .evenKeyInFloatFrame ∧
      decode .encode [0x25] = .error .notTheSentinel ∧ decode .wireFrame [1, 2, 3] = .error .wrongLength ∧
      decode .command [0, 0, 0, 0, 0, 0, 0x08] = .error .bitsAboveCommandWord := by decide

/-- The encoder's words of vectors E1, E2 and of the sentinel. -/
theorem test_encode :
    commandWord 0xFFFF 65534 false 1 = 0x7FFFFFFF1 ∧ encodeCommand (.sendF 65535 0x80000000) = 0x400000007FFFD ∧
      encode .hsTx = [0x24] := by decide

/-! ### One step per instruction -/

/-- D4: key 0 consumes the two key bytes only. -/
theorem test_decKey0 :
    sees (exec .recv (session [0, 0, 0x2C, 0x01])) (fun t => (t.status, t.phase, t.rxq)) =
      some (.noMessage, .idle, [0x2C, 0x01]) := by decide

/-- D10: -32768. -/
theorem test_decInt :
    sees (exec (.decInt 4) (waiting 4 [0x00, 0x80])) (fun t => (t.rxKey, t.rxTag, t.rxVal, t.status, t.rxq)) =
      some (4, .integer, 0xFFFF8000, .ok, []) := by decide

/-- D8: three of four value bytes are not taken early. -/
theorem test_decFlt_holds :
    sees (exec (.decFlt 3) (waiting 3 [0x00, 0x00, 0xC0])) (fun t => (t.phase, t.rxq)) =
      some (.rxWait, [0x00, 0x00, 0xC0]) := by decide

/-- D13: a NaN's payload is kept. -/
theorem test_decFlt :
    sees (exec (.decFlt 1) (waiting 1 [0x01, 0x00, 0xC0, 0x7F])) (fun t => (t.rxKey, t.rxTag, t.rxVal, t.status)) =
      some (1, .float, 0x7FC00001, .ok) := by decide

/-- H3: one sentinel consumed, one stale. -/
theorem test_hsSentinel :
    sees (exec .hsSentinel (st false .hsScan [0x24, 0x24])) (fun t => (t.sync, t.status, t.phase, t.rxq)) =
      some (true, .ok, .idle, [0x24]) := by decide

/-- H2: a stray byte is dropped and the scan goes on. -/
theorem test_hsOther :
    sees (exec (.hsOther 0x41) (st false .hsScan [0x41, 0x24, 0x02, 0x00])) (fun t => (t.sync, t.phase, t.rxq)) =
      some (false, .hsScan, [0x24, 0x02, 0x00]) := by decide

/-- R131: four sentinel-valued bytes. -/
theorem test_encInt : sees (exec (.encInt 0x2424 0x2424) (session [])) (·.txq) = some [0x24, 0x24, 0x24, 0x24] := by
  decide

/-- R132: the source's example. -/
theorem test_encFlt :
    sees (exec (.encFlt 3 0x3FC00000) (session [])) (·.txq) = some [0x03, 0x00, 0x00, 0x00, 0xC0, 0x3F] := by decide

/-- R111: the first sentinel. -/
theorem test_hsTx :
    sees (exec .hsTx (st false .hsSend [])) (fun t => (t.txq, t.hsCount, t.phase)) = some ([0x24], 1, .hsScan) := by
  decide

/-- R111: HSCOUNT saturates. -/
theorem test_hsTx_saturates :
    sees (exec .hsTx { st false .hsSend [] with hsCount := 0xFFFF }) (·.hsCount) = some 0xFFFF := by decide

/-- H9: a second OPEN clears SYNC. -/
theorem test_openLink :
    sees (exec .openLink { session [] with hsCount := 7 }) (fun t => (t.sync, t.baud, t.hsCount, t.phase)) =
      some (false, 0x4B00, 0, .hsSend) := by decide

/-- E9: val[31:16] is ignored in the frame and kept in TXVAL. -/
theorem test_sendI :
    sees (exec (.sendI 2 0xABCD012C) (session [])) (fun t => (t.txq, t.txVal, t.status)) =
      some ([0x02, 0x00, 0x2C, 0x01], 0xABCD012C, .ok) := by decide

/-- X3: the reserved key. -/
theorem test_sendI_reserved :
    sees (exec (.sendI 0 5) (session [])) (fun t => (t.txq, t.status, t.txVal)) = some ([], .keyReserved, 5) := by
  decide

/-- E2: the largest key, -0.0. -/
theorem test_sendF :
    sees (exec (.sendF 65535 0x80000000) (session [])) (fun t => (t.txq, t.status)) =
      some ([0xFF, 0xFF, 0x00, 0x00, 0x00, 0x80], .ok) := by decide

/-- X4: parity before the reserved key. -/
theorem test_sendF_key0 :
    sees (exec (.sendF 0 0x3FC00000) (session [])) (fun t => (t.txq, t.status)) = some ([], .invalidKeyParity) := by
  decide

/-- D2: one byte stays. -/
theorem test_recv_oneByte :
    sees (exec .recv (session [0x02])) (fun t => (t.status, t.rxq, t.phase)) = some (.noMessage, [0x02], .idle) := by
  decide

/-- D17: two stale sentinels are read as key 9252. -/
theorem test_recv_staleSentinels :
    sees (exec .recv (session [0x24, 0x24, 0x02, 0x00])) (fun t => (t.keyReg, t.phase, t.rxq, t.status)) =
      some (9252, .rxWait, [0x02, 0x00], .ok) := by decide

/-- X10: ILLEGAL_OP before the mode check; no latch changes. -/
theorem test_cmdReserved :
    sees (exec .cmdReserved { st false .idle [] with txKey := 9 }) (fun t => (t.status, t.txKey, t.sync)) =
      some (.illegalOp, 9, false) := by decide

/-- R99: the response word of D5's result. -/
theorem test_response_word :
    Response.word { val := 300, key := 2, tag := .integer, status := .ok } = 0x12C00020 := by decide

/-! ### The very next step after reset -/

theorem test_fetch_openLink :
    sees (step (State.reset.withFetchWord 56 0x0)) (fun t => (t.phase, t.baud)) = some (.hsSend, 19200) := by decide

/-- X6: right after reset there is no session. -/
theorem test_fetch_sendI :
    sees (step (State.reset.withFetchWord 56 0x9600011)) (fun t => (t.status, t.txKey, t.txVal, t.txq)) =
      some (.notSynchronized, 2, 300, []) := by decide

theorem test_fetch_decInt :
    sees (step (State.reset.withFetchWord 16 0x0100)) (fun t => (t.keyReg, t.phase)) = some (256, .rxWait) := by
  decide

theorem test_fetch_hsSentinel :
    sees (step (State.reset.withFetchWord 8 0x24)) (fun t => (t.sync, t.status)) = some (true, .ok) := by decide

theorem test_fetch_encFlt :
    sees (step (State.reset.withFetchWord 48 0x3FC000000003)) (·.txq) =
      some [0x03, 0x00, 0x00, 0x00, 0xC0, 0x3F] := by decide

/-! ### The clocked ports -/

/-- One edge's inputs: this command, this byte, this `tx_ready`; no reset; the line high. -/
def driven (cmd : Option CommandWord) (arrival : Option Byte) (txReady : Bool) : EdgeInputs :=
  { rst := false, cmd := cmd, arrival := arrival, txReady := txReady, line := true }

/-- One observation of the block after an edge. -/
def seesEdge {α : Type} (o : Host.Outcome Clocked Fault Refusal) (f : Clocked → α) : Option α :=
  match o with
  | .next c => some (f c)
  | .fault _ => none
  | .refused _ => none

/-- SEND.I of S1 with this much of its frame in TXQ and these bytes still to be transferred. -/
def sendingFrame (sent left : List Byte) : Clocked :=
  { core := { session [] with txq := sent }
    transfer := some { cmd := some 0x9600011, tx := left, pops := 0, taken := [] } }

/-- R220: a byte that arrives on an edge is seen by the RECV accepted on it. -/
theorem test_edge_order :
    edgeTurns (driven (some 0x2) (some 0x00) true) (session [0x02]) = [.peer 0x00, .time true, .host] ∧
      edgeTurns { driven (some 0x2) (some 0x00) true with rst := true } (session []) =
        [.reset none, .peer 0x00, .time true] := by decide

/-- R191: an accepted SEND.I offers its first byte and takes `cmd_ready` down. -/
theorem test_edge_accepts_send :
    seesEdge (Clocked.edge (driven (some 0x9600011) none true) { core := session [], transfer := none })
      (fun c => (c.txData, c.cmdReady, c.core.txq)) = some (some 0x02, false, []) := by decide

/-- R191, R58: the last byte ends the send, with its registers and its response; a stall changes nothing. -/
theorem test_edge_last_byte :
    seesEdge (Clocked.edge (driven none none true) (sendingFrame [0x02, 0x00, 0x2C] [0x01]))
        (fun c => (c.core.txq, c.core.status, c.core.txKey, c.cmdReady)) =
        some ([0x02, 0x00, 0x2C, 0x01], .ok, 2, true) ∧
      Clocked.edge (driven none none false) (sendingFrame [0x02] [0x00, 0x2C, 0x01]) =
        .next (sendingFrame [0x02] [0x00, 0x2C, 0x01]) := ⟨by decide, rfl⟩

/-- R191: RECV pops one byte an edge; R241: a reset keeps what was written and drops the rest. -/
theorem test_edge_pop_and_reset :
    seesEdge (Clocked.edge (driven none none true)
        { core := session [0x01, 0x2C], transfer := some { cmd := some 0x2, tx := [], pops := 1, taken := [0x00] } })
        (fun c => (c.core.phase, c.core.keyReg, c.core.rxq)) = some (.rxWait, 256, [0x2C]) ∧
      seesEdge (Clocked.edge { driven none none true with rst := true } (sendingFrame [0x02] [0x00, 0x2C, 0x01]))
        (fun c => (c.core.txq, c.core.sync, c.txData)) = some ([0x02], false, none) := by decide

/-- The wrapper with a bit period of two ticks, no buffer, and a frame half sent: its line busy or idle. -/
def wiredFrame (shift : List Bool) : Clocked :=
  { core := { wired (session []) 38400 with txq := [0x02], uart := { Uart.idle with txTaken := 1, txShift := shift } }
    transfer := some { cmd := some 0x9600011, tx := [0x00, 0x2C, 0x01], pops := 0, taken := [] } }

/-- R194: while the wrapper shifts a byte and has no room, the frame waits and `cmd_ready` is 0, whatever the port's
`tx_ready`; once its line is idle it takes the next byte. -/
theorem test_edge_wrapper_stalls :
    seesEdge (Clocked.edge (driven none none true) (wiredFrame [false, true]))
        (fun c => (c.core.txq, c.txData, c.cmdReady)) = some ([0x02], some 0x00, false) ∧
      seesEdge (Clocked.edge (driven none none false) (wiredFrame []))
        (fun c => (c.core.txq, c.txData, c.cmdReady)) = some ([0x02, 0x00], some 0x2C, false) := by decide

/-- R220, R195: the RECV accepted on the edge on which the line completes the key's second byte, 0x00, sees it. -/
theorem test_edge_line_byte_is_seen :
    seesEdge (Clocked.edge { driven (some 0x2) none true with line := false }
        { core := { wired (session [0x02]) 38400 with
            uart := { Uart.idle with rxPrev := false, rxBits := some (List.replicate 7 false) } }
          transfer := none })
      (fun c => (c.core.rxq, c.rxPop)) = some ([0x02, 0x00], true) := by decide

/-- R191: the pulses of an accepted OPEN and of an ended operation. -/
theorem test_pulses :
    seesEdge (Clocked.edge (driven (some 0x0) none true) { core := session [], transfer := none })
        (fun c => (Clocked.ports { core := session [], transfer := none } c).cfgValid) = some true ∧
      seesEdge (Clocked.edge (driven (some 0x3) none true) { core := session [], transfer := none })
        (fun c => (Clocked.ports { core := session [], transfer := none } c).rspValid) = some true := by decide

/-! ### Witnesses: a concrete state and operands that meet the hypotheses of each obligation together -/

theorem witness_DecodeOfEncodeIsIdentity :
    Instr.decKey0.wellFormed = true ∧ (Instr.decInt 0xFFFE).wellFormed = true ∧
      (Instr.decFlt 0xFFFF).wellFormed = true ∧ (Instr.hsOther 0xFF).wellFormed = true ∧
      (Instr.encInt 0 0xFFFF).wellFormed = true ∧ (Instr.encFlt 1 0xFFFFFFFF).wellFormed = true ∧
      (Instr.sendI 0xFFFF 0xFFFFFFFF).wellFormed = true := by decide

/-- One word for each clause, with every ignored or operand bit set. -/
theorem witness_CommandRowsByMatchAndMask :
    (0x7FFFFFFFFFFFC : CommandWord).extractLsb' 0 3 &&& 0b011 = 0b000 ∧
      (0x7FFFFFFFFFFF9 : CommandWord).extractLsb' 0 3 &&& 0b111 = 0b001 ∧
      (0x7FFFFFFFFFFFD : CommandWord).extractLsb' 0 3 &&& 0b111 = 0b101 ∧
      (0x7FFFFFFFFFFFE : CommandWord).extractLsb' 0 3 &&& 0b011 = 0b010 ∧
      (0x7FFFFFFFFFFFF : CommandWord).extractLsb' 0 3 &&& 0b011 = 0b011 := by decide

/-- The state of the next witness. -/
def portState : State := turning (asking (session [0x02]) [0x9600011]) [.host]

theorem witness_HostTurnRunsPortCommand :
    portState.turns = .host :: [] ∧ portState.phase = .idle ∧ portState.hostCmds = 0x9600011 :: [] ∧
      decode .command (commandBytes 0x9600011) = .ok (.sendI 2 300) := by decide

theorem witness_FramerTurnRunsItsUnit :
    (turning (st false .hsSend []) [.framer]).turns = .framer :: [] ∧ (st false .hsSend []).phase = .hsSend ∧
      (st false .hsScan [0x24]).phase = .hsScan ∧ (st false .hsScan [0x24]).rxq = 0x24 :: [] ∧
      decode .wireHandshake [0x24] = .ok .hsSentinel ∧ decode .wireHandshake [0x23] = .ok (.hsOther 0x23) ∧
      (waiting 0xFFFF []).phase = .rxWait ∧ (waiting 0xFFFF []).keyReg ≠ 0 ∧
      decode .wireFrame (halfBytes (waiting 0xFFFF []).keyReg) = .ok (.decFlt 0xFFFF) ∧
      decode .wireFrame (halfBytes (waiting 0xFFFE []).keyReg) = .ok (.decInt 0xFFFE) := by decide

theorem witness_RecvRunsTheKeysRow :
    (session [0x00, 0x00, 0x2C]).phase = .idle ∧ (session [0x00, 0x00, 0x2C]).sync = true ∧
      (session [0x00, 0x00, 0x2C]).rxq = 0x00 :: 0x00 :: [0x2C] ∧ decode .wireFrame [0x00, 0x00] = .ok .decKey0 ∧
      decode .wireFrame [0xFE, 0xFF] = .ok (.decInt 0xFFFE) ∧ decode .wireFrame [0x01, 0x00] = .ok (.decFlt 1) := by
  decide

theorem witness_HsTxSendsOneSentinel : ({ st false .hsSend [] with hsCount := 0xFFFF } : State).phase = .hsSend := by
  decide

/-- The state of the next witness. -/
def emptyScan : State := turning (st false .hsScan []) [.framer]

theorem witness_EmptyScanStartsTheWait :
    emptyScan.turns = .framer :: [] ∧ emptyScan.phase = .hsScan ∧ emptyScan.rxq = [] := by decide

theorem witness_SentinelCompletesOpen :
    (st false .hsScan [0x24, 0x24]).phase = .hsScan ∧ (st false .hsScan [0x24, 0x24]).rxq = 0x24 :: [0x24] := by
  decide

theorem witness_OtherByteIsDropped :
    (st false .hsScan [0x25]).phase = .hsScan ∧ (st false .hsScan [0x25]).rxq = 0x25 :: [] ∧ (0x25 : Byte) ≠ 0x24 := by
  decide

/-- HS_WAIT with a bound of 3, this count and this timer. -/
def waitState (count : BitVec 16) (timer : Nat) (turn : Turn) : State :=
  turning { st false .hsWait [] with
    hsCount := count, hsTimer := timer, params := { chip with hsTimeoutCount := 3 } } [turn]

/-- One state for each clause: timer 1 and 0, count just below, at and above the bound, a tick in and out of
HS_WAIT. -/
theorem witness_WaitEndsByRetransmissionOrTimeout :
    (waitState 3 1 .framer).phase = .hsWait ∧ (waitState 3 1 .framer).turns = .framer :: [] ∧
      (waitState 3 1 .framer).hsTimer ≠ 0 ∧
      (waitState 2 0 .framer).hsTimer = 0 ∧
      (waitState 2 0 .framer).hsCount.toNat < (waitState 2 0 .framer).params.hsTimeoutCount ∧
      (waitState 3 0 .framer).params.hsTimeoutCount ≠ 0 ∧
      (waitState 3 0 .framer).params.hsTimeoutCount ≤ (waitState 3 0 .framer).hsCount.toNat ∧
      (waitState 3 1 (.time true)).turns = .time true :: [] ∧
      (waitState 3 1 (.time true)).params.uartWrapper = false ∧
      (turning (session []) [.time false]).turns = .time false :: [] ∧ (session []).phase ≠ .hsWait ∧
      (wired (waitState 3 1 (.time false)) 38400).turns = .time false :: [] ∧
      sees (step (wired (waitState 3 1 (.time false)) 38400)) (·.hsTimer) = some 0 := by decide

/-- Keys at both ends of the even and of the odd range. -/
theorem witness_EncodeGivesTheFrame :
    (0 : Key).getLsbD 0 = false ∧ (65534 : Key).getLsbD 0 = false ∧ (1 : Key).getLsbD 0 = true ∧
      (65535 : Key).getLsbD 0 = true := by decide

theorem witness_EncodeIsInjective :
    encodePayload 2 .integer 300 = .ok [0x02, 0x00, 0x2C, 0x01] ∧
      encodePayload 2 .integer 0xFFFF012C = .ok [0x02, 0x00, 0x2C, 0x01] ∧
      encodePayload 65535 .float 0x80000000 = .ok [0xFF, 0xFF, 0x00, 0x00, 0x00, 0x80] := by decide

theorem witness_FrameUnitsAppendTheirBytes :
    (0 : Key).getLsbD 0 = false ∧ (65534 : Key).getLsbD 0 = false ∧ (1 : Key).getLsbD 0 = true ∧
      (65535 : Key).getLsbD 0 = true := by decide

theorem witness_KeyZeroIsNoMessage :
    (session [0, 0, 0x24]).phase = .idle ∧ (session [0, 0, 0x24]).sync = true ∧
      (session [0, 0, 0x24]).rxq = 0 :: 0 :: [0x24] := by decide

theorem witness_NonzeroKeyIsRecognized :
    (session []).phase = .idle ∧ (session []).sync = true ∧ (2 : Key) ≠ 0 ∧ (2 : Key).getLsbD 0 = false ∧
      (65534 : Key).getLsbD 0 = false ∧ (1 : Key).getLsbD 0 = true ∧ (65535 : Key).getLsbD 0 = true := by decide

theorem witness_IntegerValueIsDelivered :
    (waiting 0xFFFE [0xFF, 0xFF]).phase = .rxWait ∧ (waiting 0xFFFE [0xFF, 0xFF]).keyReg = 0xFFFE ∧
      (0xFFFE : Key).getLsbD 0 = false ∧ (waiting 0xFFFE [0xFF, 0xFF]).rxq = 0xFF :: 0xFF :: [] := by decide

theorem witness_FloatValueIsDelivered :
    (waiting 0xFFFF [0, 0, 0, 0x80, 1]).phase = .rxWait ∧ (waiting 0xFFFF [0, 0, 0, 0x80, 1]).keyReg = 0xFFFF ∧
      (0xFFFF : Key).getLsbD 0 = true ∧ (waiting 0xFFFF [0, 0, 0, 0x80, 1]).rxq = 0 :: 0 :: 0 :: 0x80 :: [1] := by
  decide

/-- Three bytes of four, one of two. -/
theorem witness_ValueStageHolds :
    (turning (waiting 3 [1, 2, 3]) [.framer]).turns = .framer :: [] ∧ (waiting 3 [1, 2, 3]).phase = .rxWait ∧
      (waiting 3 [1, 2, 3]).rxq.length < (if (waiting 3 [1, 2, 3]).keyReg.getLsbD 0 = true then 4 else 2) ∧
      (waiting 2 [1]).rxq.length < (if (waiting 2 [1]).keyReg.getLsbD 0 = true then 4 else 2) := by decide

theorem witness_RecvWithoutAWholeKey :
    (session [0x02]).phase = .idle ∧ (session [0x02]).sync = true ∧ (session [0x02]).rxq.length < 2 := by decide

theorem witness_RecvTakesTheKey :
    (session [0x00, 0x01]).phase = .idle ∧ (session [0x00, 0x01]).sync = true ∧
      (session [0x00, 0x01]).rxq = 0x00 :: 0x01 :: [] ∧ ((0x01 : Byte) ++ (0x00 : Byte) : Key) ≠ 0 := by decide

theorem witness_OpenStartsTheHandshake : (session [0x24]).phase = .idle := by decide

/-- A state for each clause; keys 0, 65534 and 65535. -/
theorem witness_SendIntegerOutcomes :
    (session []).phase = .idle ∧ (session []).sync = true ∧ (st false .idle []).phase = .idle ∧
      (st false .idle []).sync = false ∧ (65535 : Key).getLsbD 0 = true ∧ (65534 : Key).getLsbD 0 = false ∧
      (65534 : Key) ≠ 0 := by decide

/-- A state for each clause; keys 0 and 65535. -/
theorem witness_SendFloatOutcomes :
    (session []).phase = .idle ∧ (session []).sync = true ∧ (st false .idle []).phase = .idle ∧
      (st false .idle []).sync = false ∧ (0 : Key).getLsbD 0 = false ∧ (65535 : Key).getLsbD 0 = true := by decide

theorem witness_UnsynchronizedCommandsAreRefused :
    (st false .idle [0x02, 0x00]).phase = .idle ∧ (st false .idle [0x02, 0x00]).sync = false := by decide

theorem witness_ReservedOpcodeIsIllegal : (st false .idle []).phase = .idle := by decide

theorem witness_CommandsWaitWhileBusy :
    (turning (waiting 2 []) [.host]).phase ≠ .idle ∧ Instr.cmdReserved.context = .command ∧
      Instr.openLink.context = .command ∧ (turning (waiting 2 []) [.host]).turns = .host :: [] := by decide

/-- An RXQ of one byte, with this bound. -/
def bounded (depth : Option Nat) (q : List Byte) : State :=
  turning { session q with params := { chip with rxDepth := depth } } [.peer 0x24]

/-- Unbounded; one place left of six; full; the wrapper before OPEN. -/
theorem witness_PeerByteIsAppendedOrLost :
    (bounded none []).turns = .peer 0x24 :: [] ∧ (bounded none []).params.uartWrapper = false ∧
      (bounded none []).params.rxDepth = none ∧ (bounded (some 6) [1, 2, 3, 4, 5]).params.rxDepth = some 6 ∧
      (bounded (some 6) [1, 2, 3, 4, 5]).rxq.length < 6 ∧ 6 ≤ (bounded (some 6) [1, 2, 3, 4, 5, 6]).rxq.length ∧
      (wired { session [] with baud := 0 } 10).params.uartWrapper = true ∧
      (wired { session [] with baud := 0 } 10).baud = 0 := by decide

theorem witness_ResetClearsEveryRegister :
    (turning (waiting 2 [1]) [.reset none]).turns = .reset none :: [] ∧
      (turning (waiting 2 [1]) [.reset (some [])]).turns = .reset (some []) :: [] ∧
      sees (step (turning (waiting 2 [1]) [.reset (some [])])) (fun t => (t.keyReg, t.rxq)) = some (0, []) := by decide

/-- RX_WAIT with a configured link, which has every invariant. -/
theorem witness_StepKeepsTheInvariants :
    Inv (turning (waiting 2 [0x2C, 0x01]) [.framer]) ∧
      sees (step (turning (waiting 2 [0x2C, 0x01]) [.framer])) (·.rxVal) = some 300 := by
  refine ⟨⟨?_, ?_, ?_, ?_, ?_, ?_, ?_⟩, ?_⟩ <;> decide

theorem witness_RxqStaysWithinItsDepth :
    rxqWithinDepth (bounded (some 6) [1, 2, 3, 4, 5, 6]) = true ∧
      (bounded (some 6) [1, 2, 3, 4, 5, 6]).turns.head? = some (.peer 0x24) ∧
      sees (step (bounded (some 6) [1, 2, 3, 4, 5, 6])) (·.rxq) = some [1, 2, 3, 4, 5, 6] := by decide

/-- The three places. -/
theorem witness_SyncIsWrittenInThreePlaces :
    sees (step (turning (st false .hsScan [0x24]) [.framer])) (·.sync) = some true ∧
      sees (step (turning (asking (session []) [0]) [.host])) (·.sync) = some false ∧
      sees (step (turning (session []) [.reset none])) (·.sync) = some false := by decide

/-- Each case of the conclusion occurs: nothing, a sentinel, an integer frame, a float frame. -/
theorem witness_TxqGrowsByWholeUnits :
    sees (step (turning (session []) [.framer])) (·.txq) = some [] ∧
      sees (step (turning (st false .hsSend []) [.framer])) (·.txq) = some [0x24] ∧
      sees (step (asking (session []) [0x801])) (·.txq) = some [0x00, 0x01, 0x00, 0x00] ∧
      sees (step (asking (session []) [0x1D])) (·.txq) = some [0x03, 0, 0, 0, 0, 0] := by decide

/-- Each case occurs: none, one, two or four bytes taken, one added, a platform's buffer. -/
theorem witness_RxqIsFirstInFirstOut :
    sees (step (asking (session [1]) [0x2])) (·.rxq) = some [1] ∧
      sees (step (turning (st false .hsScan [1, 2]) [.framer])) (·.rxq) = some [2] ∧
      sees (step (turning (waiting 2 [1, 2, 3]) [.framer])) (·.rxq) = some [3] ∧
      sees (step (turning (waiting 3 [1, 2, 3, 4]) [.framer])) (·.rxq) = some [] ∧
      sees (step (turning (session [1]) [.peer 2])) (·.rxq) = some [1, 2] ∧
      sees (step (turning (session [1]) [.reset (some [9])])) (·.rxq) = some [9] := by decide

/-- Each case occurs: kept, reset, NoMessage, a result. -/
theorem witness_ResultsAreNeverPartial :
    sees (step (turning { session [] with rxKey := 7 } [.framer])) (·.rxKey) = some 7 ∧
      sees (step (turning { session [] with rxKey := 7 } [.reset none])) (·.rxKey) = some 0 ∧
      sees (step (asking { session [] with rxKey := 7 } [0x2])) (·.rxKey) = some 0 ∧
      sees (step (turning (waiting 3 [1, 2, 3, 4]) [.framer])) (·.rxKey) = some 3 := by decide

theorem witness_OperandLatchesAreTheLastSends :
    sees (step (turning { session [] with txKey := 7 } [.framer])) (·.txKey) = some 7 ∧
      sees (step (turning { session [] with txKey := 7 } [.reset none])) (·.txKey) = some 0 ∧
      sees (step (asking (session []) [0x9600019])) (fun t => (t.txKey, t.txTag)) = some (3, .integer) ∧
      sees (step (asking (session []) [0x1FE0000000015])) (fun t => (t.txKey, t.txTag)) = some (2, .float) ∧
      (session []).phase = .idle ∧ (asking (session []) [0x9600019]).turns.head? ≠ some .withdraw ∧
      sees (step (asking (session []) [0x9600019])) (fun t => 0x9600019 :: t.hostCmds) = some [0x9600019] ∧
      decodeCommand 0x9600019 = .sendI 3 300 ∧ decodeCommand 0x1FE0000000015 = .sendF 2 0x3FC00000 := by decide

/-- A writer of each register: RECV, OPEN and HS_SEND, an empty scan and a tick. -/
theorem witness_HiddenRegistersHaveTheirWriters :
    sees (step (asking (session [0x02, 0x00]) [0x2])) (·.keyReg) = some 2 ∧
      sees (step (asking { session [] with hsCount := 5, baud := 0 } [0x0])) (fun t => (t.hsCount, t.baud)) =
        some (0, 19200) ∧
      sees (step (st false .hsSend [])) (·.hsCount) = some 1 ∧ sees (step emptyScan) (·.hsTimer) = some 1 ∧
      sees (step (waitState 1 1 (.time true))) (·.hsTimer) = some 0 ∧
      (waitState 1 1 (.time true)).turns.head? = some (.time true) := by decide

/-- Each case occurs, and each way an operation ends: a value stage, a command that stays in IDLE. -/
theorem witness_EveryEndPresentsOneResponse :
    sees (step (turning (session []) [.framer])) (·.rspLog) = some [] ∧
      sees (step (asking (session []) [0x3])) (·.rspLog) =
        some [{ val := 0, key := 0, tag := .integer, status := .illegalOp }] ∧
      sees (step (turning (waiting 2 []) [.reset none])) (·.rspLog) = some [] ∧
      (waiting 2 [1, 2]).phase ≠ .idle ∧ sees (step (waiting 2 [1, 2])) (·.phase) = some .idle ∧
      sees (step (asking (session []) [0x3])) (fun t => (t.phase, t.hostCmds)) = some (.idle, []) ∧
      (asking (session []) [0x3]).turns.head? = none := by decide

/-- Every transition of R165 that changes PHASE. -/
theorem witness_SequencerTransitions :
    sees (step (asking (session []) [0x0])) (·.phase) = some .hsSend ∧
      sees (step (asking (session [0x02, 0x00]) [0x2])) (·.phase) = some .rxWait ∧
      sees (step (st false .hsSend [])) (·.phase) = some .hsScan ∧
      sees (step (st false .hsScan [])) (·.phase) = some .hsWait ∧
      sees (step (st false .hsScan [0x24])) (·.phase) = some .idle ∧
      sees (step (waitState 2 0 .framer)) (·.phase) = some .hsSend ∧
      sees (step (waitState 3 0 .framer)) (·.phase) = some .idle ∧
      sees (step (waiting 2 [1, 2])) (·.phase) = some .idle ∧
      sees (step (turning (waiting 2 []) [.reset none])) (·.phase) = some .idle := by decide

theorem witness_ResultsDoNotInfluenceBehaviour :
    ({ asking (session [0x02, 0x00, 0x2C, 0x01]) [0x2] with rxKey := 9, status := .illegalOp } : State) =
        { asking (session [0x02, 0x00, 0x2C, 0x01]) [0x2] with
          rxKey := 9, rxTag := .integer, rxVal := 0, status := .illegalOp, rspLog := [] } ∧
      sees (runFor 2 (asking (session [0x02, 0x00, 0x2C, 0x01]) [0x2])) (·.rxVal) = some 300 := by
  constructor
  · rfl
  · decide

/-- A handshake whose peer sends a stray byte, the sentinel and one byte more. -/
def handshake : State :=
  turning (st false .hsSend [0x41]) [.framer, .peer 0x24, .framer, .framer, .peer 0x07]

theorem witness_HandshakeConsumesUpToTheFirstSentinel :
    handshake.phase.inHandshake = true ∧ handshake.sync = false ∧ handshake.hostCmds = [] ∧
      noReset handshake.turns = true ∧ handshake.params.rxDepth = none ∧ handshake.params.uartWrapper = false ∧
      sees (runFor handshake.turns.length handshake) (fun t => (t.sync, t.rxq)) = some (true, [0x07]) ∧
      sees (runFor handshake.turns.length { handshake with rxq := [0x24], params := { chip with rxDepth := some 1 } })
        (fun t => (t.sync, t.rxq)) = some (true, [0x07]) := by decide

theorem witness_HandshakeWithoutSentinelNeverEnds :
    (st false .hsSend [0x41]).phase.inHandshake = true ∧ (st false .hsSend [0x41]).params.hsTimeoutCount = 0 ∧
      (st false .hsSend [0x41]).params.uartWrapper = false ∧ (st false .hsSend [0x41]).turns = [] ∧
      (0x24 : Byte) ∉ (st false .hsSend [0x41]).rxq := by decide

/-- A chip with this bound, at the start of a handshake. -/
def bound (n : Nat) : State := { st false .hsSend [] with params := { chip with hsTimeoutCount := n } }

/-- The least and the greatest bound. -/
theorem witness_HandshakeTimesOutAfterNSentinels :
    (1 ≤ 1 ∧ 1 < 2 ^ 16 ∧ (bound 1).params.hsTimeoutCount = 1) ∧
      (1 ≤ 65535 ∧ 65535 < 2 ^ 16 ∧ (bound 65535).params.hsTimeoutCount = 65535) ∧
      (bound 1).params.uartWrapper = false ∧ (bound 1).phase = .hsSend ∧ (bound 1).hsCount = 0 ∧
      (bound 1).rxq = [] ∧ (bound 1).turns = [] := by
  refine ⟨⟨?_, ?_, rfl⟩, ⟨?_, ?_, rfl⟩, rfl, rfl, rfl, rfl, rfl⟩ <;> omega

/-- Both clauses: key 65534, and key 0. -/
theorem witness_EncodeThenDecodeRoundTrip :
    (asking (session [0xFE, 0xFF, 0xFF, 0xFF]) [encodeCommand .recv]).phase = .idle ∧
      (asking (session [0xFE, 0xFF, 0xFF, 0xFF]) [encodeCommand .recv]).sync = true ∧
      (asking (session [0xFE, 0xFF, 0xFF, 0xFF]) [encodeCommand .recv]).turns = [] ∧
      (asking (session [0xFE, 0xFF, 0xFF, 0xFF]) [encodeCommand .recv]).hostCmds = [encodeCommand .recv] ∧
      encodePayload 65534 (if (65534 : Key).getLsbD 0 = true then .float else .integer) 0xFFFF =
        .ok (session [0xFE, 0xFF, 0xFF, 0xFF]).rxq ∧
      encodePayload 0 (if (0 : Key).getLsbD 0 = true then .float else .integer) 0x12C =
        .ok (session [0x00, 0x00, 0x2C, 0x01]).rxq := by decide

/-- The payloads of vector D15. -/
def payloads : List Payload := [{ key := 2, value := 300 }, { key := 3, value := 0x3FC00000 }]

theorem payloads_wf : ∀ p ∈ payloads, p.wf := by
  unfold Payload.wf
  decide

/-- The two frames with two bytes behind them, and as many RECVs. -/
def framesBuffered : State :=
  asking (session (payloads.flatMap Payload.frame ++ [0xFF, 0xFF])) (List.replicate 2 (encodeCommand .recv))

theorem witness_FramesAreDecodedInOrder :
    (∀ p ∈ payloads, p.wf) ∧ framesBuffered.phase = .idle ∧ framesBuffered.sync = true ∧ framesBuffered.turns = [] ∧
      framesBuffered.hostCmds = List.replicate payloads.length (encodeCommand .recv) ∧
      framesBuffered.rxq = payloads.flatMap Payload.frame ++ [0xFF, 0xFF] :=
  ⟨payloads_wf, rfl, rfl, rfl, rfl, rfl⟩

/-- The two sends. -/
def sendsAsked : State := asking (session []) (payloads.map Payload.sendCommand)

theorem witness_SendsWriteFramesInOrder :
    (∀ p ∈ payloads, p.wf) ∧ sendsAsked.phase = .idle ∧ sendsAsked.sync = true ∧ sendsAsked.turns = [] ∧
      sendsAsked.hostCmds = payloads.map Payload.sendCommand :=
  ⟨payloads_wf, rfl, rfl, rfl, rfl⟩

theorem witness_LinkDeliversEveryPayload :
    (∀ p ∈ payloads, p.wf) ∧ sendsAsked.phase = .idle ∧ sendsAsked.sync = true ∧ sendsAsked.turns = [] ∧
      sendsAsked.hostCmds = payloads.map Payload.sendCommand ∧ framesBuffered.phase = .idle ∧
      framesBuffered.sync = true ∧ framesBuffered.turns = [] ∧
      framesBuffered.hostCmds = List.replicate payloads.length (encodeCommand .recv) :=
  ⟨payloads_wf, rfl, rfl, rfl, rfl, rfl, rfl, rfl, rfl⟩

theorem witness_OneByteOfResidueStays :
    (asking (session [0xFE]) (List.replicate 3 (encodeCommand .recv))).phase = .idle ∧
      (asking (session [0xFE]) (List.replicate 3 (encodeCommand .recv))).sync = true ∧
      (asking (session [0xFE]) (List.replicate 3 (encodeCommand .recv))).turns = [] ∧
      (asking (session [0xFE]) (List.replicate 3 (encodeCommand .recv))).rxq = [0xFE] ∧
      (asking (session [0xFE]) (List.replicate 3 (encodeCommand .recv))).hostCmds =
        List.replicate 3 (encodeCommand .recv) :=
  ⟨rfl, rfl, rfl, rfl, rfl⟩

/-- A half-arrived float frame, a host that waits and withdraws, time passing. -/
def halfFrame : State := turning (asking (waiting 3 [0, 0, 0xC0]) [0x0]) [.framer, .host, .time true, .withdraw]

theorem witness_HalfAFrameStallsTheBlock :
    halfFrame.phase = .rxWait ∧
      halfFrame.rxq.length < (if halfFrame.keyReg.getLsbD 0 = true then 4 else 2) ∧
      noReset halfFrame.turns = true ∧ arrivals halfFrame.turns = [] ∧ halfFrame.params.uartWrapper = false := by
  decide

/-- The wrapper with a bit period of two ticks, and a byte's levels on the line. -/
def receiving (b : Byte) : State :=
  turning (wired (session []) 38400) ((lineLevels b).flatMap fun level => List.replicate 2 (.time level))

theorem witness_UartReceivesTheByteOnTheLine :
    (receiving 0x2C).params.uartWrapper = true ∧ (receiving 0x2C).params.rxDepth = none ∧
      (bounded (some 6) [1, 2, 3, 4, 5]).rxq.length < 6 ∧ 6 ≤ (bounded (some 6) [1, 2, 3, 4, 5, 6]).rxq.length ∧
      (receiving 0x2C).baud ≠ 0 ∧ bitPeriod (receiving 0x2C) = 2 ∧ (receiving 0x2C).uart.rxBits = none ∧
      (receiving 0x2C).uart.rxPrev = true ∧
      (receiving 0x2C).turns = (lineLevels 0x2C).flatMap (fun level => List.replicate 2 (.time level)) := by decide

/-- The wrapper with one byte to send, at the last tick of its stop bit. -/
def sending : State := turning { wired (session []) 38400 with txq := [0x2C] } ((List.replicate 20 true).map .time)

theorem witness_UartTransmitsTheNextByte :
    sending.params.uartWrapper = true ∧ sending.baud ≠ 0 ∧ bitPeriod sending = 2 ∧ sending.uart.txShift = [] ∧
      sending.txq[sending.uart.txTaken]? = some 0x2C ∧ sending.turns = (List.replicate 20 true).map .time ∧
      19 < 10 * bitPeriod sending ∧ 19 < (List.replicate 20 true).length := by decide

/-- The wrapper before OPEN, with the line going low. -/
def silent : State := turning { wired (st false .idle []) 38400 with baud := 0 } [.time false]

theorem witness_WrapperIsSilentUntilConfigured :
    silent.turns = .time false :: [] ∧ silent.params.uartWrapper = true ∧ silent.baud = 0 ∧ silent.phase ≠ .hsWait := by
  decide

theorem witness_LineFormat : silent.uart.txShift = [] ∧ 0 < 8 ∧ 7 < 8 := by decide

theorem witness_SaturatedCountSuffices :
    3 ≤ (session [1, 2, 3, 4]).params.rxCountW ∧ 1 ∈ [1, 2, 4] ∧ 2 ∈ [1, 2, 4] ∧ 4 ∈ [1, 2, 4] := by decide

end Sys2Proof.Tests
end

/-! ### The command word in bytes -/

section
namespace Sys2Proof

@[simp] theorem length_bytesOfNat (n w : Nat) : (bytesOfNat n w).length = n := by
  induction n generalizing w with
  | zero => rfl
  | succ n ih => simp [bytesOfNat, ih]

/-- Splitting keeps the low `n` bytes of the number, and assembly (R83) gives them back. -/
theorem natOfBytes_bytesOfNat (n w : Nat) : natOfBytes (bytesOfNat n w) = w % 256 ^ n := by
  induction n generalizing w with
  | zero => simp [bytesOfNat, natOfBytes, Nat.mod_one]
  | succ n ih => simp [bytesOfNat, natOfBytes, ih, Nat.pow_succ', Nat.mod_mul]

/-- The seven bytes hold all 51 bits of the command word (R95; log 11). -/
theorem natOfBytes_commandBytes (cw : CommandWord) : natOfBytes (commandBytes cw) = cw.toNat := by
  have fits : cw.toNat < 256 ^ 7 := by have := cw.isLt; omega
  rw [commandBytes, natOfBytes_bytesOfNat, Nat.mod_eq_of_lt fits]

/-- Through its bytes a command word decodes to the row its fields select (R96). -/
@[simp] theorem decode_commandBytes (cw : CommandWord) :
    decode .command (commandBytes cw) = .ok (decodeCommand cw) := by
  have sevenBytes : (commandBytes cw).length = 7 := length_bytesOfNat 7 cw.toNat
  simp only [decode, decodeCommandBytes, sevenBytes, natOfBytes_commandBytes, cw.isLt, if_true,
    BitVec.ofNat_toNat, BitVec.setWidth_eq]

end Sys2Proof
end

/-! ### The host's turn -/

section
namespace Sys2Proof.Machine

/-- A step is the listed turn, taken in the state without it (R10). -/
theorem step_cons {s : State} {turn : Turn} {ts : List Turn} (h : s.turns = turn :: ts) :
    step s = takeTurn turn (s.setTurns ts) := by
  rw [step, nextTurn_cons h]

/-- In IDLE the host's turn takes the command at the port and runs it (R165). -/
theorem hostTurn_idle_cons {s : State} {cw : CommandWord} {cs : List CommandWord} (hidle : s.phase = .idle)
    (hport : s.hostCmds = cw :: cs) : hostTurn s = exec (decodeCommand cw) (s.setHostCmds cs) := by
  simp [hostTurn, fetchCommand, hidle, hport]

/-- Settles O6: the row the word's bytes decode to is the row its fields select, and the host's turn, once taken off
the list, runs that row. -/
theorem hostTurnRunsPortCommand : Obligations.HostTurnRunsPortCommand := by
  intro s ts cw cs i hturn hidle hport hdecode
  rw [decode_commandBytes] at hdecode
  obtain rfl := Except.ok.inj hdecode
  rw [step_cons hturn]
  exact hostTurn_idle_cons (s := s.setTurns ts) hidle hport

end Sys2Proof.Machine
end

/-! ### What a step can do -/

section
namespace Sys2Proof.Machine

/-- Withdrawing never is the default turn: it stands at the head of the list (R165). -/
theorem nextTurn_withdraw {s : State} (h : (nextTurn s).1 = .withdraw) : s.turns.head? = some .withdraw := by
  rcases ht : s.turns with _ | ⟨turn, ts⟩
  · rw [nextTurn_nil ht] at h
    simp only [defaultTurn] at h
    split at h
    · cases h
    · split at h <;> cases h
  · rw [nextTurn_cons ht] at h
    exact congrArg some h

/-- A framer's step, or a command once taken, leaves the port alone (R165). -/
theorem Effect.hostCmds {s t : State} (e : Effect s t) : t.hostCmds = s.hostCmds := by
  cases e <;> rfl

/-- What a step can do to `s`, by the agent that moves (R10): `TurnEffect` with the turn's place in the list. -/
inductive StepEffect (s : State) : State → Prop
  /-- The framer runs a rule outside IDLE. -/
  | framer (ts : List Turn) (t : State) : s.phase ≠ .idle → Effect (s.setTurns ts) t → StepEffect s t
  /-- The command at the port is accepted (R165). -/
  | command (ts : List Turn) (cw : CommandWord) (t : State) : s.phase = .idle → s.hostCmds = cw :: t.hostCmds →
      exec (decodeCommand cw) ((s.setTurns ts).setHostCmds t.hostCmds) = .next t →
      Effect ((s.setTurns ts).setHostCmds t.hostCmds) t → StepEffect s t
  /-- Time passes, a byte arrives, or the agent whose turn it is has no step (R32, R60, R115). -/
  | surroundings (ts : List Turn) (n : Nat) (u : Uart) (q : List Byte) :
      (n = s.hsTimer ∨ (s.phase = .hsWait ∧ n + 1 = s.hsTimer)) → (q = s.rxq ∨ ∃ b, q = s.rxq ++ [b]) →
      StepEffect s ((((s.setTurns ts).setHsTimer n).setUart u).setRxq q)
  /-- The host withdraws its command (R165). -/
  | withdraw (ts : List Turn) (cs : List CommandWord) : s.turns.head? = some .withdraw →
      StepEffect s ((s.setTurns ts).setHostCmds cs)
  /-- Reset (R240). -/
  | reset (q : Option (List Byte)) (ts : List Turn) : s.turns = .reset q :: ts →
      StepEffect s (applyReset q (s.setTurns ts))

/-- A turn without a step takes itself off the list. -/
theorem StepEffect.waits (s : State) (ts : List Turn) : StepEffect s (s.setTurns ts) :=
  .surroundings ts s.hsTimer s.uart s.rxq (.inl rfl) (.inl rfl)

theorem StepEffect.peerArrive (s : State) (ts : List Turn) (b : Byte) :
    StepEffect s ((s.setTurns ts).peerArrive b) := by
  obtain ⟨h, -⟩ | ⟨h, -⟩ := peerArrive_cases (s.setTurns ts) b <;> rw [h]
  · exact .surroundings ts s.hsTimer s.uart _ (.inl rfl) (.inr ⟨b, rfl⟩)
  · exact .waits s ts

theorem StepEffect.timeTick (s : State) (ts : List Turn) (line : Bool) :
    StepEffect s (timeTick line (s.setTurns ts)) := by
  have timer := timeTick_hsTimer line (s.setTurns ts)
  obtain ⟨n, u, q, h, hq⟩ := timeTick_changes line (s.setTurns ts)
  rw [h] at timer ⊢
  refine .surroundings ts n u q ?_ (hq.imp_right fun ⟨b, hb, _⟩ => ⟨b, hb⟩)
  by_cases hp : s.phase = .hsWait
  · simp [hp] at timer ⊢
    omega
  · simp [hp] at timer
    exact .inl timer

/-- The inversion of `step`, from the inversion of its turn. -/
theorem stepEffect_of_step {s t : State} (h : step s = .next t) : StepEffect s t := by
  obtain ⟨ts, hts⟩ := nextTurn_snd s
  have effect := step_effect h
  rw [hts] at effect
  generalize hturn : (nextTurn s).1 = turn at effect
  cases effect with
  | framer t stays he =>
    by_cases hp : s.phase = .idle
    · rw [stays hp]
      exact .waits s ts
    · exact .framer ts t hp he
  | command cw cs t hp hc hx he =>
    obtain rfl : t.hostCmds = cs := he.hostCmds
    exact .command ts cw t hp hc hx he
  | hostWaits _ => exact .waits s ts
  | withdraw => exact .withdraw ts _ (nextTurn_withdraw hturn)
  | peer b => exact .peerArrive s ts b
  | time line => exact .timeTick s ts line
  | reset q =>
    obtain ⟨ts', listed, hts'⟩ := nextTurn_reset hturn
    rw [← hts, hts']
    exact .reset q ts' listed

end Sys2Proof.Machine
end

/-! ### The invariants of the reachable state (R37) -/

section
namespace Sys2Proof.Machine

/-- The clauses of `Inv` about the session: SYNC, PHASE, KEYREG and BAUD. -/
def SessionInv (s : State) : Prop :=
  (s.phase.inHandshake = true → s.sync = false) ∧
  (s.phase = .rxWait → s.sync = true ∧ s.keyReg ≠ Config.keyNone) ∧
  (s.baud = 0 ∨ s.baud = Config.linkRate) ∧
  ((s.sync = true ∨ s.phase ≠ .idle) → s.baud = Config.linkRate)

/-- The clauses of `Inv` about the result latches and STATUS. -/
def ResultInv (s : State) : Prop :=
  s.rxTag = Tag.ofKey s.rxKey ∧
  (s.status = .noMessage → s.rxKey = 0 ∧ s.rxTag = .integer ∧ s.rxVal = 0) ∧
  (s.rxTag = .integer → s.rxVal = resultOfInteger (integerOf s.rxVal))

theorem inv_iff (s : State) : Inv s ↔ SessionInv s ∧ ResultInv s := by
  constructor
  · rintro ⟨unsync, wait, tag, zero, extended, legal, configured⟩
    exact ⟨⟨unsync, wait, legal, configured⟩, tag, zero, extended⟩
  · rintro ⟨⟨unsync, wait, legal, configured⟩, tag, zero, extended⟩
    exact ⟨unsync, wait, tag, zero, extended, legal, configured⟩

/-! #### The session's clauses -/

/-- In IDLE only the clauses about BAUD speak. -/
theorem sessionInv_of_idle {s : State} (hp : s.phase = .idle) (legal : s.baud = 0 ∨ s.baud = Config.linkRate)
    (configured : s.sync = true → s.baud = Config.linkRate) : SessionInv s := by
  simpa [SessionInv, hp, Phase.inHandshake] using ⟨legal, configured⟩

/-- The phases of ESTABLISH lead to each other (R111 to R116). -/
theorem SessionInv.setPhase_handshake {s : State} (h : SessionInv s) {p : Phase}
    (hs : s.phase.inHandshake = true) (hp : p.inHandshake = true) : SessionInv (s.setPhase p) := by
  obtain ⟨unsync, -, legal, configured⟩ := h
  have busy : s.phase ≠ .idle := fun idle => by simp [idle, Phase.inHandshake] at hs
  have noWait : p ≠ .rxWait := fun wait => by simp [wait, Phase.inHandshake] at hp
  exact ⟨fun _ => unsync hs, fun wait => absurd wait noWait, legal, fun _ => configured (.inr busy)⟩

theorem Effect.keeps_sessionInv {s t : State} (e : Effect s t) (h : SessionInv s) : SessionInv t := by
  obtain ⟨-, -, legal, configured⟩ := id h
  cases e with
  | stay => exact h
  | transmitSentinel hp => exact SessionInv.setPhase_handshake h (p := .hsScan) (by rw [hp]; rfl) rfl
  | scanEmpty hp _ => exact SessionInv.setPhase_handshake h (p := .hsWait) (by rw [hp]; rfl) rfl
  | byteDropped b q hp _ _ => exact SessionInv.setPhase_handshake h (p := .hsScan) (by rw [hp]; rfl) rfl
  | intervalOver hp _ _ => exact SessionInv.setPhase_handshake h (p := .hsSend) (by rw [hp]; rfl) rfl
  | sentinelSeen q hp _ => exact sessionInv_of_idle rfl legal fun _ => configured (.inr (by simp [hp]))
  | opened _ => exact ⟨fun _ => rfl, fun wait => (by cases wait), .inr rfl, fun _ => rfl⟩
  | frameRecognized b0 b1 q _ hs _ hk =>
    exact ⟨fun hand => (by cases hand), fun _ => ⟨hs, hk⟩, legal, fun _ => configured (.inl hs)⟩
  | timedOut | sendRefused | integerSent | floatSent | recvRefused | tooFewBytes | keyZero | integerTaken
  | floatTaken | reservedOpcode => exact sessionInv_of_idle rfl legal fun hs => configured (.inl hs)

/-! #### The results' clauses -/

theorem ResultInv.finish {s : State} (h : ResultInv s) {c : ResultCode} (hc : c ≠ .noMessage) :
    ResultInv (s.finish c) := by
  obtain ⟨tag, -, extended⟩ := h
  exact ⟨tag, fun h => absurd h hc, extended⟩

/-- Zeros in the result latches, NoMessage's (R145) or those of a reset (R240), are an integer result of key 0. -/
theorem resultInv_of_zeros {s : State} (key : s.rxKey = 0) (tag : s.rxTag = .integer) (val : s.rxVal = 0) :
    ResultInv s := by
  have tagOfZero : .integer = Tag.ofKey 0 := by decide
  have zeroExtended : (0 : Value) = resultOfInteger (integerOf 0) := by decide
  rw [ResultInv, key, tag, val]
  exact ⟨tagOfZero, fun _ => ⟨rfl, rfl, rfl⟩, fun _ => zeroExtended⟩

theorem integerOf_resultOfInteger (v : IntPattern) : integerOf (resultOfInteger v) = v := by
  ext i hi
  simp [integerOf, resultOfInteger, BitVec.getElem_signExtend, hi, show i < 32 by omega]

/-- A delivered integer (R150). -/
theorem resultInv_integer (s : State) {key : Key} (hk : parity key = false) (v : IntPattern) :
    ResultInv ((s.latchResult key .integer (resultOfInteger v)).finish .ok) :=
  ⟨by simp [Tag.ofKey, hk], fun h => (by cases h), fun _ => by simp [integerOf_resultOfInteger]⟩

/-- A delivered float (R151). -/
theorem resultInv_float (s : State) {key : Key} (hk : parity key = true) (v : Value) :
    ResultInv ((s.latchResult key .float v).finish .ok) :=
  ⟨by simp [Tag.ofKey, hk], fun h => (by cases h), fun h => (by cases h)⟩

/-- No check of a send answers NO_MESSAGE (R170 to R172). -/
theorem sendCheck_ne_noMessage (s : State) : sendCheck s ≠ some .noMessage := by
  unfold sendCheck
  repeat' split
  all_goals simp

theorem Effect.keeps_resultInv {s t : State} (e : Effect s t) (h : ResultInv s) : ResultInv t := by
  cases e with
  | stay | transmitSentinel | scanEmpty | byteDropped | intervalOver | opened | frameRecognized => exact h
  | sentinelSeen | timedOut | integerSent | floatSent | recvRefused | reservedOpcode =>
    exact h.finish (by simp)
  | sendRefused key tag v c _ check =>
    refine h.finish ?_
    rintro rfl
    exact sendCheck_ne_noMessage _ check
  | tooFewBytes | keyZero => exact resultInv_of_zeros rfl rfl rfl
  | integerTaken b2 b3 q _ hk _ => exact resultInv_integer _ hk _
  | floatTaken b2 b3 b4 b5 q _ hk _ => exact resultInv_float _ hk _

/-! #### The whole invariant -/

/-- Every reset leaves the registers with which a run starts (R20, R240). -/
theorem inv_applyReset (q : Option (List Byte)) (s : State) : Inv (applyReset q s) := by
  have session : SessionInv (applyReset q s) := sessionInv_of_idle rfl (.inl rfl) fun synced => by cases synced
  exact (inv_iff _).mpr ⟨session, resultInv_of_zeros rfl rfl rfl⟩

/-- Settles O34: the registers of the reset state are those that a reset of it leaves. -/
theorem resetSatisfiesTheInvariants : Obligations.ResetSatisfiesTheInvariants := by
  obtain ⟨session, result⟩ := (inv_iff _).mp (inv_applyReset none State.reset)
  exact (inv_iff _).mpr ⟨session, result⟩

/-- Settles O35: every effect keeps both halves of the invariant, the surroundings and the host's plan have no part in
it, and a reset establishes it. -/
theorem stepKeepsTheInvariants : Obligations.StepKeepsTheInvariants := by
  intro s t hinv hstep
  obtain ⟨session, result⟩ := (inv_iff s).mp hinv
  cases stepEffect_of_step hstep with
  | framer ts t _ e => exact (inv_iff t).mpr ⟨e.keeps_sessionInv session, e.keeps_resultInv result⟩
  | command ts cw t _ _ _ e => exact (inv_iff t).mpr ⟨e.keeps_sessionInv session, e.keeps_resultInv result⟩
  | surroundings | withdraw => exact (inv_iff _).mpr ⟨session, result⟩
  | reset q ts _ => exact inv_applyReset q _

end Sys2Proof.Machine
end

/-! ### Which register a step writes -/

section
namespace Sys2Proof.Machine

/-! #### SYNC -/

/-- SYNC by effect (R113, R166). -/
theorem Effect.sync_writers {s t : State} (e : Effect s t) :
    t.sync = s.sync ∨
    (t.sync = true ∧ s.phase = .hsScan ∧ s.rxq = 0x24 :: t.rxq ∧ t.phase = .idle ∧ t.status = .ok) ∨
    (t.sync = false ∧ s.phase = .idle ∧ t.phase = .hsSend) := by
  cases e with
  | sentinelSeen q hp hq => exact .inr (.inl ⟨rfl, hp, hq, rfl, rfl⟩)
  | opened hp => exact .inr (.inr ⟨rfl, hp, rfl⟩)
  | _ => exact .inl rfl

/-- OPEN is the one command that leads to HS_SEND (R165). -/
theorem decodeCommand_of_hsSend {cw : CommandWord} {s t : State} (hx : exec (decodeCommand cw) s = .next t)
    (hp : s.phase = .idle) (ht : t.phase = .hsSend) : decodeCommand cw = .openLink := by
  obtain ⟨opens, -⟩ | ⟨k, v, -, rfl⟩ | ⟨k, v, -, rfl⟩ | ⟨-, recv⟩ | ⟨-, rfl⟩ := execCommand_cases hp hx
  · exact opens
  · obtain ⟨-, -, -, idle, -⟩ := sendLatched_keeps (s.latchSend k .integer v)
    cases idle.symm.trans ht
  · obtain ⟨-, -, -, idle, -⟩ := sendLatched_keeps (s.latchSend k .float v)
    cases idle.symm.trans ht
  · obtain ⟨-, -, -, -, idle | ⟨wait, -⟩⟩ := execRecv_keeps hp recv
    · cases idle.symm.trans ht
    · cases wait.symm.trans ht
  · cases ht

/-- Settles O38: by effect, with OPEN as the one command that leads to HS_SEND. -/
theorem syncIsWrittenInThreePlaces : Obligations.SyncIsWrittenInThreePlaces := by
  intro s t hstep changed
  cases stepEffect_of_step hstep with
  | framer ts t busy e =>
    obtain same | seen | ⟨-, idle, -⟩ := e.sync_writers
    · exact absurd same changed
    · exact .inl seen
    · exact absurd idle busy
  | command ts cw t hp hc hx e =>
    obtain same | ⟨-, scan, -⟩ | ⟨cleared, -, ht⟩ := e.sync_writers
    · exact absurd same changed
    · cases hp.symm.trans scan
    · exact .inr (.inl ⟨cleared, hp, ht, cw, hc, decodeCommand_of_hsSend hx hp ht⟩)
  | surroundings | withdraw => exact absurd rfl changed
  | reset q ts listed => exact .inr (.inr ⟨rfl, q, listed⟩)

/-! #### RXQ -/

/-- Every effect takes 0, 1, 2 or 4 bytes from the head of RXQ (R55, R57). -/
theorem Effect.rxq_taken {s t : State} (e : Effect s t) :
    ∃ taken : List Byte, taken.length ∈ [0, 1, 2, 4] ∧ s.rxq = taken ++ t.rxq := by
  cases e with
  | sentinelSeen q _ hq => exact ⟨[Config.sentinel], by simp, hq⟩
  | byteDropped b q _ hq _ => exact ⟨[b], by simp, hq⟩
  | keyZero b0 b1 q _ _ hq _ | frameRecognized b0 b1 q _ _ hq _ | integerTaken b0 b1 q _ _ hq =>
    exact ⟨[b0, b1], by simp, hq⟩
  | floatTaken b2 b3 b4 b5 q _ _ hq => exact ⟨[b2, b3, b4, b5], by simp, hq⟩
  | _ => exact ⟨[], by simp, rfl⟩

/-- The same, counted: the bytes left are those behind the ones taken. -/
theorem Effect.rxq_drop {s t : State} (e : Effect s t) :
    ∃ n, n ∈ [0, 1, 2, 4] ∧ n ≤ s.rxq.length ∧ t.rxq = s.rxq.drop n := by
  obtain ⟨taken, count, hq⟩ := e.rxq_taken
  exact ⟨taken.length, count, by simp [hq], by simp [hq]⟩

/-- Settles O40: effects take from the head, an arriving byte goes to the tail, a platform's reset replaces RXQ. -/
theorem rxqIsFirstInFirstOut : Obligations.RxqIsFirstInFirstOut := by
  intro s t hstep
  have untouched : ∃ n, n ∈ [0, 1, 2, 4] ∧ n ≤ s.rxq.length ∧ s.rxq = s.rxq.drop n := ⟨0, by simp⟩
  cases stepEffect_of_step hstep with
  | framer ts t _ e => exact .inl e.rxq_drop
  | command ts cw t _ _ _ e => exact .inl e.rxq_drop
  | surroundings ts n u q _ hq =>
    obtain rfl | appended := hq
    · exact .inl untouched
    · exact .inr (.inl appended)
  | withdraw => exact .inl untouched
  | reset q ts listed =>
    cases q with
    | none => exact .inl untouched
    | some q => exact .inr (.inr ⟨q, listed, rfl⟩)

/-! #### The result latches -/

/-- A send keeps the result latches (R26 to R28). -/
theorem sendLatched_results (s : State) :
    (sendLatched s).rxKey = s.rxKey ∧ (sendLatched s).rxTag = s.rxTag ∧ (sendLatched s).rxVal = s.rxVal := by
  unfold sendLatched
  repeat' split
  all_goals exact ⟨rfl, rfl, rfl⟩

/-- RECV is the one command that writes the result latches (R26 to R28). -/
theorem results_of_not_recv {cw : CommandWord} {s t : State} (hx : exec (decodeCommand cw) s = .next t)
    (hp : s.phase = .idle) (other : decodeCommand cw ≠ .recv) :
    t.rxKey = s.rxKey ∧ t.rxTag = s.rxTag ∧ t.rxVal = s.rxVal := by
  obtain ⟨-, rfl⟩ | ⟨k, v, -, rfl⟩ | ⟨k, v, -, rfl⟩ | ⟨recv, -⟩ | ⟨-, rfl⟩ := execCommand_cases hp hx
  · exact ⟨rfl, rfl, rfl⟩
  · exact sendLatched_results _
  · exact sendLatched_results _
  · exact absurd recv other
  · exact ⟨rfl, rfl, rfl⟩

/-- A key is 0 just when both its bytes are (R84, R91). -/
theorem halfOfBytes_eq_zero {b0 b1 : Byte} (h : halfOfBytes b0 b1 = Config.keyNone) : b0 = 0 ∧ b1 = 0 := by
  rw [halfOfBytes_eq_append] at h
  have bits (i : Nat) := (getLsbD_append_half b1 b0 i).symm.trans (congrArg (·.getLsbD i) h)
  constructor
  · ext i hi
    simpa [hi, Config.keyNone] using bits i
  · ext i hi
    simpa [hi, Config.keyNone] using bits (i + 8)

/-- The key stage ends without a message: no whole key is buffered, or the key is 0 (R146, R148). -/
def EndsWithNoMessage (s t : State) : Prop :=
  ((s.rxq.length < 2 ∧ t.rxq = s.rxq) ∨ s.rxq = 0 :: 0 :: t.rxq) ∧
  t.phase = .idle ∧ t.status = .noMessage ∧ t.rxKey = 0 ∧ t.rxTag = .integer ∧ t.rxVal = 0

/-- The value stage ends with the key in KEYREG and the value of the bytes taken (R150, R151). -/
def DeliversValue (s t : State) : Prop :=
  s.phase = .rxWait ∧ t.phase = .idle ∧ t.status = .ok ∧ t.rxKey = s.keyReg ∧
  ((s.keyReg.getLsbD 0 = false ∧ t.rxTag = .integer ∧
      ∃ b2 b3, s.rxq = b2 :: b3 :: t.rxq ∧ t.rxVal = (b3 ++ b2 : BitVec 16).signExtend 32) ∨
    (s.keyReg.getLsbD 0 = true ∧ t.rxTag = .float ∧
      ∃ b2 b3 b4 b5, s.rxq = b2 :: b3 :: b4 :: b5 :: t.rxq ∧ t.rxVal = b5 ++ b4 ++ b3 ++ b2))

/-- The result latches by effect (R26 to R28, R153). -/
theorem Effect.result_writers {s t : State} (e : Effect s t) :
    (t.rxKey = s.rxKey ∧ t.rxTag = s.rxTag ∧ t.rxVal = s.rxVal) ∨
    (s.phase = .idle ∧ s.sync = true ∧ EndsWithNoMessage s t) ∨
    DeliversValue s t := by
  cases e with
  | tooFewBytes hp hs short => exact .inr (.inl ⟨hp, hs, .inl ⟨short, rfl⟩, rfl, rfl, rfl, rfl, rfl⟩)
  | keyZero b0 b1 q hp hs hq hk =>
    obtain ⟨rfl, rfl⟩ := halfOfBytes_eq_zero hk
    exact .inr (.inl ⟨hp, hs, .inr hq, rfl, rfl, rfl, rfl, rfl⟩)
  | integerTaken b2 b3 q hp hk hq =>
    have value := congrArg resultOfInteger (halfOfBytes_eq_append b2 b3)
    exact .inr (.inr ⟨hp, rfl, rfl, rfl, .inl ⟨hk, rfl, b2, b3, hq, value⟩⟩)
  | floatTaken b2 b3 b4 b5 q hp hk hq =>
    exact .inr (.inr ⟨hp, rfl, rfl, rfl, .inr ⟨hk, rfl, b2, b3, b4, b5, hq, wordOfBytes_eq_append b2 b3 b4 b5⟩⟩)
  | _ => exact .inl ⟨rfl, rfl, rfl⟩

/-- Settles O41: by effect, with RECV as the one command that writes the latches. -/
theorem resultsAreNeverPartial : Obligations.ResultsAreNeverPartial := by
  intro s t hstep
  cases stepEffect_of_step hstep with
  | framer ts t busy e =>
    obtain kept | ⟨idle, -⟩ | delivered := e.result_writers
    · exact .inl kept
    · exact absurd idle busy
    · exact .inr (.inr (.inr delivered))
  | command ts cw t hp hc hx e =>
    by_cases recv : decodeCommand cw = .recv
    · obtain kept | ⟨-, synced, noMessage⟩ | ⟨wait, -⟩ := e.result_writers
      · exact .inl kept
      · exact .inr (.inr (.inl ⟨hp, synced, ⟨cw, hc, recv⟩, noMessage⟩))
      · cases hp.symm.trans wait
    · have kept := results_of_not_recv hx hp recv
      exact .inl kept
  | surroundings | withdraw => exact .inl ⟨rfl, rfl, rfl⟩
  | reset q ts listed => exact .inr (.inl ⟨q, listed⟩)

/-! #### The operand latches -/

/-- Outside IDLE no effect writes the operand latches (R23 to R25). -/
theorem Effect.operands_of_busy {s t : State} (e : Effect s t) (busy : s.phase ≠ .idle) :
    t.txKey = s.txKey ∧ t.txTag = s.txTag ∧ t.txVal = s.txVal := by
  cases e with
  | sendRefused key tag v c idle _ | integerSent key v idle _ _ _ | floatSent key v idle _ _ =>
    exact absurd idle busy
  | _ => exact ⟨rfl, rfl, rfl⟩

/-- The operands a command brings for the latches: a send's key, tag and value (R167, R168). -/
def sendOperands : Instr → Option (Key × Tag × Value)
  | .sendI key v => some (key, .integer, v)
  | .sendF key v => some (key, .float, v)
  | _ => none

/-- After an accepted command the operand latches hold what it brought, or what they held (R23 to R25). -/
theorem operands_of_command {cw : CommandWord} {s t : State} (hx : exec (decodeCommand cw) s = .next t)
    (hp : s.phase = .idle) :
    (t.txKey, t.txTag, t.txVal) = (sendOperands (decodeCommand cw)).getD (s.txKey, s.txTag, s.txVal) := by
  obtain ⟨hi, rfl⟩ | ⟨k, v, hi, rfl⟩ | ⟨k, v, hi, rfl⟩ | ⟨hi, recv⟩ | ⟨hi, rfl⟩ := execCommand_cases hp hx <;>
    rw [hi]
  · rfl
  · obtain ⟨hk, ht, hv, -⟩ := sendLatched_keeps (s.latchSend k .integer v)
    rw [hk, ht, hv]
    rfl
  · obtain ⟨hk, ht, hv, -⟩ := sendLatched_keeps (s.latchSend k .float v)
    rw [hk, ht, hv]
    rfl
  · obtain ⟨hk, ht, hv, -⟩ := execRecv_keeps hp recv
    rw [hk, ht, hv]
    rfl
  · rfl

/-- Settles O42: a command leaves in the operand latches what it brought, and no other step touches them. -/
theorem operandLatchesAreTheLastSends : Obligations.OperandLatchesAreTheLastSends := by
  intro s t hstep
  cases stepEffect_of_step hstep with
  | framer ts t busy e => exact ⟨.inl (e.operands_of_busy busy), fun _ _ _ idle => absurd idle busy⟩
  | command ts cw t hp hc hx e =>
    have latches := operands_of_command hx hp
    refine ⟨?_, fun cw' k v _ _ hc' => ?_⟩
    · cases hi : decodeCommand cw with
      | sendI k v => exact .inr (.inr ⟨hp, cw, k, v, hc, .inl (by simpa [hi, sendOperands] using latches)⟩)
      | sendF k v => exact .inr (.inr ⟨hp, cw, k, v, hc, .inr (by simpa [hi, sendOperands] using latches)⟩)
      | _ => exact .inl (by simpa [hi, sendOperands] using latches)
    · obtain rfl : cw = cw' := by simpa [hc] using hc'
      exact ⟨fun hi => by simpa [hi, sendOperands] using latches,
        fun hi => by simpa [hi, sendOperands] using latches⟩
  | surroundings => exact ⟨.inl ⟨rfl, rfl, rfl⟩, fun cw _ _ _ _ hc => by simp at hc⟩
  | withdraw ts cs listed => exact ⟨.inl ⟨rfl, rfl, rfl⟩, fun _ _ _ _ other => absurd listed other⟩
  | reset q ts listed => exact ⟨.inr (.inl ⟨q, listed⟩), fun cw _ _ _ _ hc => by simp [applyReset] at hc⟩

/-! #### KEYREG, HSCOUNT, HSTIMER and BAUD -/

/-- KEYREG by effect (R30, R149). -/
theorem Effect.keyReg_writers {s t : State} (e : Effect s t) :
    t.keyReg = s.keyReg ∨
      (s.phase = .idle ∧ t.phase = .rxWait ∧ t.keyReg ≠ 0 ∧
        ∃ b0 b1, s.rxq = b0 :: b1 :: t.rxq ∧ t.keyReg = b1 ++ b0) := by
  cases e with
  | frameRecognized b0 b1 q hp _ hq hk =>
    exact .inr ⟨hp, rfl, hk, b0, b1, hq, halfOfBytes_eq_append b0 b1⟩
  | _ => exact .inl rfl

/-- HSCOUNT saturates, or counts one more (R111). -/
theorem hsCountNext_cases (n : BitVec 16) : hsCountNext n = n ∨ (hsCountNext n).toNat = n.toNat + 1 := by
  unfold hsCountNext
  split
  · exact .inl rfl
  · next below =>
    have lt : n.toNat ≠ 2 ^ 16 - 1 := fun h => below (BitVec.eq_of_toNat_eq (h.trans BitVec.toNat_allOnes.symm))
    have fits : n.toNat + (1 : BitVec 16).toNat < 2 ^ 16 := by
      have := n.isLt
      simp only [BitVec.ofNat_eq_ofNat, BitVec.toNat_ofNat]
      omega
    exact .inr (BitVec.toNat_add_of_lt fits)

/-- HSCOUNT by effect (R31, R111, R166). -/
theorem Effect.hsCount_writers {s t : State} (e : Effect s t) :
    t.hsCount = s.hsCount ∨ (s.phase = .idle ∧ t.phase = .hsSend ∧ t.hsCount = 0) ∨
      (s.phase = .hsSend ∧ t.phase = .hsScan ∧ t.hsCount.toNat = s.hsCount.toNat + 1) := by
  cases e with
  | transmitSentinel hp => exact (hsCountNext_cases s.hsCount).imp_right fun more => .inr ⟨hp, rfl, more⟩
  | opened hp => exact .inr (.inl ⟨hp, rfl, rfl⟩)
  | _ => exact .inl rfl

/-- HSTIMER by effect (R32, R112); a tick's count is none of these. -/
theorem Effect.hsTimer_writers {s t : State} (e : Effect s t) :
    t.hsTimer = s.hsTimer ∨
      (s.phase = .hsScan ∧ t.phase = .hsWait ∧ t.hsTimer = (100 * s.params.fClk + 999) / 1000) := by
  cases e with
  | scanEmpty hp _ => exact .inr ⟨hp, rfl, rfl⟩
  | _ => exact .inl rfl

/-- BAUD by effect (R33, R166). -/
theorem Effect.baud_writers {s t : State} (e : Effect s t) :
    t.baud = s.baud ∨ (s.phase = .idle ∧ t.phase = .hsSend ∧ t.baud = 19200) := by
  cases e with
  | opened hp => exact .inr ⟨hp, rfl, rfl⟩
  | _ => exact .inl rfl

/-- Settles O43: register by register, by effect; a tick's count of HSTIMER is the surroundings' own. -/
theorem hiddenRegistersHaveTheirWriters : Obligations.HiddenRegistersHaveTheirWriters := by
  intro s t hstep noReset
  cases stepEffect_of_step hstep with
  | framer ts t _ e =>
    exact ⟨e.keyReg_writers, e.hsCount_writers, e.hsTimer_writers.imp_right .inl, e.baud_writers⟩
  | command ts cw t _ _ _ e =>
    exact ⟨e.keyReg_writers, e.hsCount_writers, e.hsTimer_writers.imp_right .inl, e.baud_writers⟩
  | surroundings ts n u q timer _ =>
    exact ⟨.inl rfl, .inl rfl, timer.imp_right fun ⟨wait, less⟩ => .inr ⟨wait, wait, less⟩, .inl rfl⟩
  | withdraw => exact ⟨.inl rfl, .inl rfl, .inl rfl, .inl rfl⟩
  | reset q ts listed => exact absurd (congrArg List.head? listed) (noReset q)

/-! #### STATUS and the responses -/

/-- An effect ends the operation with one response, or goes on without one and outside IDLE, or is no step at all
(R29, R99, R222). -/
theorem Effect.response_cases {s t : State} (e : Effect s t) :
    (t.phase = .idle ∧ t.rspLog = s.rspLog ++ [t.response t.status]) ∨
    ((t.phase ≠ .idle ∨ t = s) ∧ t.rspLog = s.rspLog ∧ t.status = s.status) := by
  cases e with
  | stay => exact .inr ⟨.inr rfl, rfl, rfl⟩
  | transmitSentinel | scanEmpty | byteDropped | intervalOver | opened | frameRecognized =>
    exact .inr ⟨.inl (by simp), rfl, rfl⟩
  | _ => exact .inl ⟨rfl, rfl⟩

/-- A send presents one response (R167, R168). -/
theorem sendLatched_response (s : State) :
    (sendLatched s).rspLog = s.rspLog ++ [(sendLatched s).response (sendLatched s).status] := by
  unfold sendLatched
  repeat' split
  all_goals rfl

/-- A RECV that ends at once presents one response (R146, R148, R170). -/
theorem execRecv_response {s t : State} (hx : execRecv s = .next t) (hp : s.phase = .idle) (ended : t.phase = .idle) :
    t.rspLog = s.rspLog ++ [t.response t.status] := by
  simp only [execRecv, hp, if_true] at hx
  split at hx
  · next hs =>
    rw [keyStage_eq s hp hs] at hx
    repeat' split at hx
    all_goals cases hx
    · rfl
    · cases ended
    · rfl
  · cases hx
    rfl

/-- A command that ends in the step that takes it presents one response (R165, R222). -/
theorem response_of_command {cw : CommandWord} {s t : State} (hx : exec (decodeCommand cw) s = .next t)
    (hp : s.phase = .idle) (ended : t.phase = .idle) : t.rspLog = s.rspLog ++ [t.response t.status] := by
  obtain ⟨-, rfl⟩ | ⟨k, v, -, rfl⟩ | ⟨k, v, -, rfl⟩ | ⟨-, recv⟩ | ⟨-, rfl⟩ := execCommand_cases hp hx
  · cases ended
  · exact sendLatched_response (s.latchSend k .integer v)
  · exact sendLatched_response (s.latchSend k .float v)
  · exact execRecv_response recv hp ended
  · rfl

/-- Settles O44: an effect outside IDLE and a command at the port present a response just when they end the operation;
the other agents end none. -/
theorem everyEndPresentsOneResponse : Obligations.EveryEndPresentsOneResponse := by
  intro s t hstep
  cases stepEffect_of_step hstep with
  | framer ts t busy e =>
    obtain ended | ⟨goesOn, kept⟩ := e.response_cases
    · exact ⟨.inr (.inl ended), fun _ _ _ _ => ended.2⟩
    · refine ⟨.inl kept, fun _ _ idle _ => ?_⟩
      obtain outside | rfl := goesOn
      · exact absurd idle outside
      · exact absurd idle busy
  | command ts cw t hp _ hx e =>
    have answers := response_of_command hx hp
    refine ⟨?_, fun _ _ idle _ => answers idle⟩
    obtain ended | ⟨-, kept⟩ := e.response_cases
    · exact .inr (.inl ended)
    · exact .inl kept
  | surroundings =>
    refine ⟨.inl ⟨rfl, rfl⟩, fun _ _ idle ends => ?_⟩
    obtain busy | taken := ends
    · exact absurd idle busy
    · exact absurd rfl taken
  | withdraw ts cs listed => exact ⟨.inl ⟨rfl, rfl⟩, fun _ other => absurd listed other⟩
  | reset q ts listed =>
    exact ⟨.inr (.inr ⟨rfl, q, listed⟩), fun other => absurd (congrArg List.head? listed) (other q)⟩

end Sys2Proof.Machine
end

/-! ### The result latches, STATUS and the responses have no influence (R36) -/

section
namespace Sys2Proof.Machine

/-- The state without what R36 (c) sets apart: result latches, STATUS and the responses given. Two states differ only
in those just when they are equal after forgetting. -/
def State.forget (s : State) : State :=
  { s with rxKey := 0, rxTag := .integer, rxVal := 0, status := .ok, rspLog := [] }

@[simp] theorem State.forget_sync (s : State) : s.forget.sync = s.sync := rfl
@[simp] theorem State.forget_phase (s : State) : s.forget.phase = s.phase := rfl
@[simp] theorem State.forget_txKey (s : State) : s.forget.txKey = s.txKey := rfl
@[simp] theorem State.forget_txTag (s : State) : s.forget.txTag = s.txTag := rfl
@[simp] theorem State.forget_txVal (s : State) : s.forget.txVal = s.txVal := rfl
@[simp] theorem State.forget_rxq (s : State) : s.forget.rxq = s.rxq := rfl
@[simp] theorem State.forget_txq (s : State) : s.forget.txq = s.txq := rfl
@[simp] theorem State.forget_uart (s : State) : s.forget.uart = s.uart := rfl
@[simp] theorem State.forget_turns (s : State) : s.forget.turns = s.turns := rfl

theorem forget_eq_iff (s t : State) :
    t.forget = s.forget ↔
      t = { s with rxKey := t.rxKey, rxTag := t.rxTag, rxVal := t.rxVal, status := t.status, rspLog := t.rspLog } := by
  constructor
  · intro h
    calc t = { t.forget with
          rxKey := t.rxKey, rxTag := t.rxTag, rxVal := t.rxVal, status := t.status, rspLog := t.rspLog } := rfl
      _ = _ := by rw [h]; rfl
  · exact congrArg State.forget

/-- An outcome without the results in its state. -/
def forgetOutcome : Host.Outcome State Fault Refusal → Host.Outcome State Fault Refusal
  | .next s => .next s.forget
  | .fault f => .fault f
  | .refused r => .refused r

@[simp] theorem forgetOutcome_next (s : State) : forgetOutcome (.next s) = .next s.forget := rfl

/-! #### The surroundings and the host's plan commute with forgetting -/

theorem peerArrive_forget (b : Byte) (s : State) : s.forget.peerArrive b = (s.peerArrive b).forget := by
  simp only [State.peerArrive, apply_ite State.forget]
  rfl

theorem uartTransmit_forget (s : State) : uartTransmit s.forget = (uartTransmit s).forget := by
  simp only [uartTransmit, State.forget_uart, State.forget_txq]
  rcases s.uart.txShift with _ | ⟨level, rest⟩
  · rcases s.txq.drop s.uart.txTaken with _ | ⟨b, q⟩ <;> rfl
  · simp only [apply_ite State.forget]
    rfl

theorem uartReceive_forget (line : Bool) (s : State) :
    uartReceive line s.forget = (uartReceive line s).forget := by
  simp only [uartReceive, State.forget_uart]
  rcases s.uart.rxBits with _ | bits
  · simp only [apply_ite State.forget]
    rfl
  · simp only [apply_ite State.forget, ← peerArrive_forget]
    rfl

theorem uartTick_forget (line : Bool) (s : State) : uartTick line s.forget = (uartTick line s).forget := by
  simp only [uartTick, uartTransmit_forget, uartReceive_forget, apply_ite State.forget]
  rfl

theorem timeTick_forget (line : Bool) (s : State) : timeTick line s.forget = (timeTick line s).forget := by
  simp only [timeTick, ← uartTick_forget, apply_ite State.forget]
  rfl

/-! #### So do the units and the commands -/

theorem execHsTx_forget (s : State) : forgetOutcome (execHsTx s.forget) = forgetOutcome (execHsTx s) := by
  simp only [execHsTx, apply_ite forgetOutcome]
  rfl

theorem execHsSentinel_forget (s : State) :
    forgetOutcome (execHsSentinel s.forget) = forgetOutcome (execHsSentinel s) := by
  simp only [execHsSentinel, rxRead_one, State.forget_rxq]
  rcases s.rxq with _ | ⟨b, q⟩ <;> simp only [apply_ite forgetOutcome] <;> rfl

theorem execHsOther_forget (other : Byte) (s : State) :
    forgetOutcome (execHsOther other s.forget) = forgetOutcome (execHsOther other s) := by
  simp only [execHsOther, rxRead_one, State.forget_rxq]
  rcases s.rxq with _ | ⟨b, q⟩ <;> simp only [apply_ite forgetOutcome] <;> rfl

theorem sequencerStep_forget (s : State) : (sequencerStep s.forget).forget = (sequencerStep s).forget := by
  simp only [sequencerStep, State.forget_phase, hsWaitOver]
  rcases s.phase
  case hsWait =>
    simp only [apply_ite State.forget]
    rfl
  all_goals rfl

theorem takeInteger_forget (s : State) : (takeInteger s.forget).forget = (takeInteger s).forget := by
  simp only [takeInteger, rxRead_two, State.forget_rxq]
  rcases s.rxq with _ | ⟨b2, _ | ⟨b3, q⟩⟩ <;> rfl

theorem takeFloat_forget (s : State) : (takeFloat s.forget).forget = (takeFloat s).forget := by
  simp only [takeFloat, rxRead_four, State.forget_rxq]
  rcases s.rxq with _ | ⟨b2, _ | ⟨b3, _ | ⟨b4, _ | ⟨b5, q⟩⟩⟩⟩ <;> rfl

theorem execDecKey0_forget (s : State) : forgetOutcome (execDecKey0 s.forget) = forgetOutcome (execDecKey0 s) := by
  simp only [execDecKey0, apply_ite forgetOutcome]
  rfl

theorem execDecInt_forget (key : Key) (s : State) :
    forgetOutcome (execDecInt key s.forget) = forgetOutcome (execDecInt key s) := by
  simp only [execDecInt, apply_ite forgetOutcome, forgetOutcome_next, takeInteger_forget]
  rfl

theorem execDecFlt_forget (key : Key) (s : State) :
    forgetOutcome (execDecFlt key s.forget) = forgetOutcome (execDecFlt key s) := by
  simp only [execDecFlt, apply_ite forgetOutcome, forgetOutcome_next, takeFloat_forget]
  rfl

theorem emitPayload_forget (key : Key) (tag : Tag) (v : Value) (s : State) :
    forgetOutcome (emitPayload key tag v s.forget) = forgetOutcome (emitPayload key tag v s) := by
  simp only [emitPayload]
  rcases encodePayload key tag v with c | bs <;> rfl

theorem execOpen_forget (s : State) : forgetOutcome (execOpen s.forget) = forgetOutcome (execOpen s) := by
  simp only [execOpen, apply_ite forgetOutcome]
  rfl

theorem sendLatched_forget (s : State) : (sendLatched s.forget).forget = (sendLatched s).forget := by
  have sameCheck : sendCheck s.forget = sendCheck s := rfl
  simp only [sendLatched, sameCheck, State.forget_txKey, State.forget_txTag, State.forget_txVal]
  rcases sendCheck s with _ | c
  · rcases encodePayload s.txKey s.txTag s.txVal with c | bs <;> rfl
  · rfl

theorem latchSend_forget (key : Key) (tag : Tag) (v : Value) (s : State) :
    s.forget.latchSend key tag v = (s.latchSend key tag v).forget := rfl

theorem execSendI_forget (key : Key) (v : Value) (s : State) :
    forgetOutcome (execSendI key v s.forget) = forgetOutcome (execSendI key v s) := by
  simp only [execSendI, apply_ite forgetOutcome, forgetOutcome_next, latchSend_forget, sendLatched_forget]
  rfl

theorem execSendF_forget (key : Key) (v : Value) (s : State) :
    forgetOutcome (execSendF key v s.forget) = forgetOutcome (execSendF key v s) := by
  simp only [execSendF, apply_ite forgetOutcome, forgetOutcome_next, latchSend_forget, sendLatched_forget]
  rfl

theorem keyStage_forget (s : State) (hp : s.phase = .idle) (hs : s.sync = true) :
    forgetOutcome (keyStage s.forget) = forgetOutcome (keyStage s) := by
  rw [keyStage_eq s hp hs, keyStage_eq s.forget hp hs, State.forget_rxq]
  rcases s.rxq with _ | ⟨b0, _ | ⟨b1, q⟩⟩
  · rfl
  · rfl
  · simp only [apply_ite forgetOutcome]
    rfl

theorem execRecv_forget (s : State) : forgetOutcome (execRecv s.forget) = forgetOutcome (execRecv s) := by
  simp only [execRecv, State.forget_phase, State.forget_sync]
  by_cases hp : s.phase = .idle
  · by_cases hs : s.sync = true
    · simp only [hp, hs, if_true]
      exact keyStage_forget s hp hs
    · simp only [hp, hs, if_true]
      rfl
  · simp only [hp, if_false]
    rfl

theorem execCmdReserved_forget (s : State) :
    forgetOutcome (execCmdReserved s.forget) = forgetOutcome (execCmdReserved s) := by
  simp only [execCmdReserved, apply_ite forgetOutcome]
  rfl

/-- No row of the opcode table reads the results or the responses (R36). -/
theorem exec_forget (i : Instr) (s : State) : forgetOutcome (exec i s.forget) = forgetOutcome (exec i s) := by
  cases i with
  | decKey0 => exact execDecKey0_forget s
  | decInt key => exact execDecInt_forget key s
  | decFlt key => exact execDecFlt_forget key s
  | hsSentinel => exact execHsSentinel_forget s
  | hsOther b => exact execHsOther_forget b s
  | encInt key val => exact emitPayload_forget key .integer (val.setWidth 32) s
  | encFlt key pattern => exact emitPayload_forget key .float pattern s
  | hsTx => exact execHsTx_forget s
  | openLink => exact execOpen_forget s
  | sendI key val => exact execSendI_forget key val s
  | sendF key val => exact execSendF_forget key val s
  | recv => exact execRecv_forget s
  | cmdReserved => exact execCmdReserved_forget s

/-! #### So do the turns, the steps and the runs -/

theorem framerTurn_forget (s : State) : forgetOutcome (framerTurn s.forget) = forgetOutcome (framerTurn s) := by
  have sameUnit : fetchUnit s.forget = fetchUnit s := rfl
  rw [framerTurn, framerTurn, sameUnit]
  rcases fetchUnit s with _ | i
  · exact congrArg Host.Outcome.next (sequencerStep_forget s)
  · exact exec_forget i s

/-- Without a command it can take, the host's turn changes nothing (R165). -/
theorem hostTurn_waits {s : State} (h : s.phase ≠ .idle ∨ s.hostCmds = []) : hostTurn s = .next s := by
  by_cases hp : s.phase = .idle
  · have none : s.hostCmds = [] := h.resolve_left fun busy => busy hp
    simp [hostTurn, fetchCommand, none]
  · simp [hostTurn, fetchCommand, hp]

theorem hostTurn_forget (s : State) : forgetOutcome (hostTurn s.forget) = forgetOutcome (hostTurn s) := by
  by_cases hp : s.phase = .idle
  · rcases hc : s.hostCmds with _ | ⟨cw, cs⟩
    · rw [hostTurn_waits (.inr hc), hostTurn_waits (s := s.forget) (.inr hc)]
      rfl
    · rw [hostTurn_idle_cons hp hc, hostTurn_idle_cons (s := s.forget) hp hc]
      exact exec_forget (decodeCommand cw) (s.setHostCmds cs)
  · rw [hostTurn_waits (.inl hp), hostTurn_waits (s := s.forget) (.inl hp)]
    rfl

theorem takeTurn_forget (turn : Turn) (s : State) :
    forgetOutcome (takeTurn turn s.forget) = forgetOutcome (takeTurn turn s) := by
  cases turn with
  | framer => exact framerTurn_forget s
  | host => exact hostTurn_forget s
  | withdraw => rfl
  | peer b =>
    rw [takeTurn, takeTurn, peerArrive_forget]
    rfl
  | time line =>
    rw [takeTurn, takeTurn, timeTick_forget]
    rfl
  | reset q => rfl

theorem nextTurn_forget (s : State) : nextTurn s.forget = ((nextTurn s).1, (nextTurn s).2.forget) := by
  simp only [nextTurn, State.forget_turns]
  rcases s.turns with _ | ⟨turn, ts⟩ <;> rfl

theorem step_forget (s : State) : forgetOutcome (step s.forget) = forgetOutcome (step s) := by
  rw [step, nextTurn_forget]
  exact takeTurn_forget _ _

/-- The step lemma of R36 (c): states that differ only in results and responses step to such states. -/
theorem step_of_forget_eq {s t s' : State} (same : t.forget = s.forget) (hstep : step s = .next s') :
    ∃ t', step t = .next t' ∧ t'.forget = s'.forget := by
  obtain ⟨t', ht, -⟩ := takeTurn_effect (nextTurn t).1 (nextTurn t).2
  have hstep' : step t = .next t' := ht
  have outcomes : forgetOutcome (step t) = forgetOutcome (step s) := by
    rw [← step_forget t, same, step_forget s]
  rw [hstep, hstep'] at outcomes
  exact ⟨t', hstep', Host.Outcome.next.inj outcomes⟩

/-- The first step of a run that answers a next state. -/
theorem exists_step_of_runFor_succ {n : Nat} {s s' : State} (h : runFor (n + 1) s = .next s') :
    ∃ s1, step s = .next s1 ∧ runFor n s1 = .next s' := by
  rw [runFor] at h
  split at h
  · next s1 h1 => exact ⟨s1, h1, h⟩
  · cases h
  · cases h

theorem runFor_of_forget_eq (n : Nat) {s t s' : State} (same : t.forget = s.forget)
    (hrun : runFor n s = .next s') : ∃ t', runFor n t = .next t' ∧ t'.forget = s'.forget := by
  induction n generalizing s t with
  | zero =>
    cases hrun
    exact ⟨t, rfl, same⟩
  | succ n ih =>
    obtain ⟨s1, hs1, rest⟩ := exists_step_of_runFor_succ hrun
    obtain ⟨t1, ht1, same1⟩ := step_of_forget_eq same hs1
    rw [runFor_succ n ht1]
    exact ih same1 rest

/-- Settles O46: every step commutes with forgetting the results, by induction so does every run. -/
theorem resultsDoNotInfluenceBehaviour : Obligations.ResultsDoNotInfluenceBehaviour := by
  intro n s t s' differ hrun
  obtain ⟨t', ht', same⟩ := runFor_of_forget_eq n ((forget_eq_iff s t).mpr differ) hrun
  exact ⟨t', ht', (forget_eq_iff s' t').mp same⟩

end Sys2Proof.Machine
end

/-! ### The framer's turn -/

section
namespace Sys2Proof.Machine

/-- A key's two bytes decode to the key's row (R84, R97). -/
theorem decode_halfBytes (key : Key) : decode .wireFrame (halfBytes key) = .ok (decodeKey key) :=
  congrArg (fun k => Except.ok (decodeKey k)) (halfOfBytes_split key)

/-- Of a nonzero key bit 0 alone selects the row (R90). -/
theorem decodeKey_of_ne_zero {key : Key} (h : key ≠ Config.keyNone) :
    decodeKey key = if parity key then .decFlt key else .decInt key := by
  cases hp : parity key
  · simp [decodeKey, classifyKey_integer.mpr ⟨h, hp⟩]
  · simp [decodeKey, classifyKey_float.mpr hp]

/-- The framer's turn runs the unit it fetches (R22). -/
theorem step_of_fetchUnit {s : State} {ts : List Turn} {i : Instr} (hturn : s.turns = .framer :: ts)
    (hunit : fetchUnit s = some i) : step s = exec i (s.setTurns ts) := by
  have hunit' : fetchUnit (s.setTurns ts) = some i := hunit
  rw [step_cons hturn]
  simp only [takeTurn, framerTurn, hunit']

/-- Settles O7: in each phase the unit fetched is the row the bytes decode to. -/
theorem framerTurnRunsItsUnit : Obligations.FramerTurnRunsItsUnit := by
  intro s ts hturn
  refine ⟨fun hp => ?_, fun b q i hp hq hdecode => ?_, fun i hp hk hdecode => ?_⟩
  · exact step_of_fetchUnit hturn (by simp [fetchUnit, hp])
  · obtain rfl : decodeHandshakeByte b = i := Except.ok.inj hdecode
    exact step_of_fetchUnit hturn (by simp [fetchUnit, hp, hq])
  · rw [decode_halfBytes, decodeKey_of_ne_zero hk] at hdecode
    obtain rfl := Except.ok.inj hdecode
    exact step_of_fetchUnit hturn (by simp [fetchUnit, hp])

end Sys2Proof.Machine
end

/-! ### The reset state -/

section
namespace Sys2Proof.Machine

/-- Settles O33: the reset state is written out with these values. -/
theorem resetStateHasTheSpecsValues : Obligations.ResetStateHasTheSpecsValues :=
  ⟨rfl, rfl, rfl, rfl, rfl, rfl, rfl, rfl, rfl, rfl, rfl, rfl, rfl, rfl⟩

end Sys2Proof.Machine
end

/-! ### What arrives in RXQ, and its count -/

section
namespace Sys2Proof.Machine

theorem rxqWithinDepth_iff (s : State) :
    rxqWithinDepth s = true ↔ ∀ d, s.params.rxDepth = some d → s.rxq.length ≤ d := by
  unfold rxqWithinDepth
  cases s.params.rxDepth <;> simp

theorem rxHasRoom_iff (s : State) :
    rxHasRoom s = true ↔ ∀ d, s.params.rxDepth = some d → s.rxq.length < d := by
  unfold rxHasRoom
  cases s.params.rxDepth <;> simp

/-- A stream that does not grow stays within its depth. -/
theorem rxqWithinDepth_of_le {s t : State} (hparams : t.params = s.params) (hlen : t.rxq.length ≤ s.rxq.length)
    (h : rxqWithinDepth s = true) : rxqWithinDepth t = true := by
  rw [rxqWithinDepth_iff] at h ⊢
  intro d hd
  exact hlen.trans (h d (hparams ▸ hd))

/-- With room for it, one more byte stays within the depth (R198). -/
theorem rxqWithinDepth_of_room {s t : State} {b : Byte} (hparams : t.params = s.params)
    (hq : t.rxq = s.rxq ++ [b]) (room : rxHasRoom s = true) : rxqWithinDepth t = true := by
  rw [rxHasRoom_iff] at room
  rw [rxqWithinDepth_iff, hq]
  intro d hd
  simpa using room d (hparams ▸ hd)

/-- No effect changes the chip (R36). -/
theorem Effect.params {s t : State} (e : Effect s t) : t.params = s.params := by
  cases e <;> rfl

theorem Effect.keeps_rxqWithinDepth {s t : State} (e : Effect s t) (h : rxqWithinDepth s = true) :
    rxqWithinDepth t = true := by
  obtain ⟨taken, -, hq⟩ := e.rxq_taken
  exact rxqWithinDepth_of_le e.params (by simp [hq]) h

theorem peerArrive_keeps_rxqWithinDepth {s : State} (b : Byte) (h : rxqWithinDepth s = true) :
    rxqWithinDepth (s.peerArrive b) = true := by
  obtain ⟨appended, -, room⟩ | ⟨lost, -⟩ := peerArrive_cases s b
  · rw [appended]
    exact rxqWithinDepth_of_room (s := s) rfl rfl room
  · rw [lost]
    exact h

theorem timeTick_keeps_rxqWithinDepth {s : State} (line : Bool) (h : rxqWithinDepth s = true) :
    rxqWithinDepth (timeTick line s) = true := by
  obtain ⟨n, u, q, ticked, rfl | ⟨b, rfl, room⟩⟩ := timeTick_changes line s <;> rw [ticked]
  · exact h
  · exact rxqWithinDepth_of_room (s := s) rfl rfl room

/-- Settles O37: effects only take from RXQ, a byte arrives only where there is room, and a reset without the
platform's buffer leaves RXQ. -/
theorem rxqStaysWithinItsDepth : Obligations.RxqStaysWithinItsDepth := by
  intro s t within noPlatform hstep
  have effect := step_effect hstep
  obtain ⟨ts, hts⟩ := nextTurn_snd s
  rw [hts] at effect
  have within' : rxqWithinDepth (s.setTurns ts) = true := within
  generalize hturn : (nextTurn s).1 = turn at effect
  cases effect with
  | framer t _ e => exact e.keeps_rxqWithinDepth within'
  | command cw cs t _ _ _ e => exact e.keeps_rxqWithinDepth within
  | hostWaits | withdraw => exact within
  | peer b => exact peerArrive_keeps_rxqWithinDepth b within'
  | time line => exact timeTick_keeps_rxqWithinDepth line within'
  | reset q =>
    obtain ⟨ts', listed, -⟩ := nextTurn_reset hturn
    cases q with
    | none => exact within
    | some q => exact absurd (congrArg List.head? listed) (noPlatform q)

theorem peerArrive_of_room {s : State} (b : Byte) (hears : transportDeaf s = false) (room : rxHasRoom s = true) :
    s.peerArrive b = s.setRxq (s.rxq ++ [b]) := by
  simp [State.peerArrive, hears, room]

theorem peerArrive_of_lost {s : State} (b : Byte) (lost : transportDeaf s = true ∨ rxHasRoom s = false) :
    s.peerArrive b = s := by
  obtain h | h := lost <;> simp [State.peerArrive, h]

theorem transportDeaf_iff (s : State) :
    transportDeaf s = true ↔ s.params.uartWrapper = true ∧ s.baud = 0 := by
  simp [transportDeaf]

/-- Settles O31: the peer's turn is an arrival, which is kept just when the transport listens and there is room. -/
theorem peerByteIsAppendedOrLost : Obligations.PeerByteIsAppendedOrLost := by
  intro s ts b hturn
  have arrives : step s = .next ((s.setTurns ts).peerArrive b) := step_cons hturn
  have appends (hears : transportDeaf s = false) (room : rxHasRoom s = true) :
      step s = .next { s with turns := ts, rxq := s.rxq ++ [b] } :=
    arrives.trans (congrArg _ (peerArrive_of_room (s := s.setTurns ts) b hears room))
  have loses (lost : transportDeaf s = true ∨ rxHasRoom s = false) : step s = .next { s with turns := ts } :=
    arrives.trans (congrArg _ (peerArrive_of_lost (s := s.setTurns ts) b lost))
  refine ⟨fun listens => ?_, fun wrapper noBaud => loses (.inl ((transportDeaf_iff s).mpr ⟨wrapper, noBaud⟩))⟩
  have hears : transportDeaf s = false := by
    rw [Bool.eq_false_iff, ne_eq, transportDeaf_iff]
    obtain bare | configured := listens
    · simp [bare]
    · exact fun deaf => configured deaf.2
  refine ⟨fun unbounded => ?_, fun d hd => ⟨fun below => ?_, fun full => ?_⟩⟩
  · exact appends hears (by simp [rxHasRoom, unbounded])
  · exact appends hears (by simpa [rxHasRoom, hd] using below)
  · exact loses (.inr (by simpa [rxHasRoom, hd] using full))

/-- Settles O60: an RXCOUNT_W of at least 3 counts up to 7 or beyond, and the framer asks for at most 4 bytes. -/
theorem saturatedCountSuffices : Obligations.SaturatedCountSuffices := by
  intro s n wide hn
  have top : 2 ^ 3 ≤ 2 ^ s.params.rxCountW := Nat.pow_le_pow_right (by decide) wide
  have small : n ≤ 4 := by
    simp only [List.mem_cons, List.not_mem_nil, or_false] at hn
    omega
  have fits : n ≤ 2 ^ s.params.rxCountW - 1 := by omega
  simp only [rxCount, rxAvail, le_min_iff, fits, and_true]

end Sys2Proof.Machine
end

/-! ### What a step adds to TXQ -/

section
namespace Sys2Proof.Machine

/-- TXQ by effect (R55, R111, R167, R168). -/
theorem Effect.txq_writers {s t : State} (e : Effect s t) :
    t.txq = s.txq ∨
    (s.phase = .hsSend ∧ t.txq = s.txq ++ [0x24]) ∨
    (s.phase = .idle ∧ s.sync = true ∧ ∃ (k : Key) (v : IntPattern), k ≠ 0 ∧ k.getLsbD 0 = false ∧
      t.txq = s.txq ++ integerFrame k v) ∨
    (s.phase = .idle ∧ s.sync = true ∧ ∃ (k : Key) (v : Value), k.getLsbD 0 = true ∧
      t.txq = s.txq ++ floatFrame k v) := by
  cases e with
  | transmitSentinel hp => exact .inr (.inl ⟨hp, rfl⟩)
  | integerSent key v hp hs even nonzero =>
    exact .inr (.inr (.inl ⟨hp, hs, key, integerOf v, nonzero, even, rfl⟩))
  | floatSent key v hp hs odd => exact .inr (.inr (.inr ⟨hp, hs, key, v, odd, rfl⟩))
  | _ => exact .inl rfl

/-- Settles O39: by effect; neither the surroundings nor a reset writes TXQ. -/
theorem txqGrowsByWholeUnits : Obligations.TxqGrowsByWholeUnits := by
  intro s t hstep
  cases stepEffect_of_step hstep with
  | framer ts t _ e => exact e.txq_writers
  | command ts cw t _ _ _ e => exact e.txq_writers
  | surroundings | withdraw | reset => exact .inl rfl

end Sys2Proof.Machine
end

/-! ### The fields of a command word (R95) -/

section
namespace Sys2Proof

variable (val : Value) (key : Key) (tag : Bool) (op : BitVec 2)

/-- A command word bit by bit: the boundaries of R95. -/
theorem getLsbD_commandWord (i : Nat) :
    (commandWord val key tag op).getLsbD i =
      if i < 2 then op.getLsbD i
      else if i < 3 then tag
      else if i < 19 then key.getLsbD (i - 3)
      else val.getLsbD (i - 19) := by
  have bits : (val ++ key ++ BitVec.ofBool tag ++ op : BitVec (32 + 16 + 1 + 2)).getLsbD i =
      if i < 2 then op.getLsbD i
      else if i - 2 < 1 then (BitVec.ofBool tag).getLsbD (i - 2)
      else if i - 2 - 1 < 16 then key.getLsbD (i - 2 - 1)
      else val.getLsbD (i - 2 - 1 - 16) := by
    rw [BitVec.getLsbD_append, BitVec.getLsbD_append, BitVec.getLsbD_append]
  refine bits.trans ?_
  have h : i < 2 ∨ i = 2 ∨ (3 ≤ i ∧ i < 19) ∨ 19 ≤ i := by omega
  rcases h with h | rfl | ⟨h3, h19⟩ | h19
  · simp [h]
  · simp
  · simp [h19, show ¬ i < 2 by omega, show ¬ i < 3 by omega, show ¬ i - 2 < 1 by omega,
      show i - 2 - 1 = i - 3 by omega, show i - 3 < 16 by omega]
  · simp [show ¬ i < 2 by omega, show ¬ i < 3 by omega, show ¬ i < 19 by omega, show ¬ i - 2 < 1 by omega,
      show ¬ i - 2 - 1 < 16 by omega, show i - 2 - 1 - 16 = i - 19 by omega]

@[simp] theorem op_commandWord : CommandWord.op (commandWord val key tag op) = op := by
  apply BitVec.eq_of_getLsbD_eq
  intro i hi
  simp [CommandWord.op, getLsbD_commandWord, hi]

@[simp] theorem tag_commandWord : CommandWord.tag (commandWord val key tag op) = tag := by
  rw [CommandWord.tag, getLsbD_commandWord]
  rfl

@[simp] theorem key_commandWord : CommandWord.key (commandWord val key tag op) = key := by
  apply BitVec.eq_of_getLsbD_eq
  intro i hi
  simp [CommandWord.key, getLsbD_commandWord, hi, show ¬ 3 + i < 2 by omega, show 3 + i < 19 by omega]

@[simp] theorem val_commandWord : CommandWord.val (commandWord val key tag op) = val := by
  apply BitVec.eq_of_getLsbD_eq
  intro i hi
  simp [CommandWord.val, getLsbD_commandWord, hi, show ¬ 19 + i < 2 by omega, show ¬ 19 + i < 3 by omega]

theorem decodeCommand_recv : decodeCommand (encodeCommand .recv) = .recv := by decide

theorem decodeCommand_sendI : decodeCommand (encodeCommand (.sendI key val)) = .sendI key val := by
  rw [show encodeCommand (.sendI key val) = commandWord val key false 1 from rfl, decodeCommand, op_commandWord,
    tag_commandWord, key_commandWord, val_commandWord]
  rfl

theorem decodeCommand_sendF : decodeCommand (encodeCommand (.sendF key val)) = .sendF key val := by
  rw [show encodeCommand (.sendF key val) = commandWord val key true 1 from rfl, decodeCommand, op_commandWord,
    tag_commandWord, key_commandWord, val_commandWord]
  rfl

end Sys2Proof
end

/-! ### Runs of sends and of RECVs in the default order -/

section
namespace Sys2Proof.Machine

/-! #### The default order (log 2) -/

/-- In IDLE the default order gives the turn to a waiting command. -/
theorem step_default_host {s : State} {cw : CommandWord} {cs : List CommandWord} (hturns : s.turns = [])
    (hidle : s.phase = .idle) (hport : s.hostCmds = cw :: cs) :
    step s = exec (decodeCommand cw) (s.setHostCmds cs) := by
  have host : defaultTurn s = .host := by simp [defaultTurn, framerEnabled, hidle, hport]
  rw [step, nextTurn_nil hturns, host]
  exact hostTurn_idle_cons hidle hport

/-- An enabled step of the framer comes first in the default order. -/
theorem step_default_framer {s : State} (hturns : s.turns = []) (enabled : framerEnabled s = true) :
    step s = framerTurn s := by
  have framer : defaultTurn s = .framer := by simp [defaultTurn, enabled]
  rw [step, nextTurn_nil hturns, framer]
  rfl

/-! #### A send -/

/-- The checks of R170 to R172 let a nonzero key of the tag's parity pass in a synchronized session. -/
theorem sendCheck_eq_none {s : State} (hs : s.sync = true) (hpar : parity s.txKey = s.txTag.bit)
    (hk : s.txKey ≠ Config.keyNone) : sendCheck s = none := by
  simp [sendCheck, hs, hpar, hk]

theorem bit_ofKey (key : Key) : (Tag.ofKey key).bit = parity key := by
  cases hp : parity key <;> simp [Tag.ofKey, hp, Tag.bit]

/-- ENCODE of a payload with its own tag is its frame (R131, R132). -/
theorem encodePayload_frame (p : Payload) : encodePayload p.key (Tag.ofKey p.key) p.value = .ok p.frame := by
  rw [encodePayload_eq, if_pos (bit_ofKey p.key).symm, Payload.frame]
  cases Tag.ofKey p.key <;> rfl

/-- A payload in the operand latches goes out as its frame (R167, R168). -/
theorem sendLatched_payload {s : State} {p : Payload} (hs : s.sync = true) (hwf : p.wf) :
    sendLatched (s.latchSend p.key (Tag.ofKey p.key) p.value) =
      ((s.latchSend p.key (Tag.ofKey p.key) p.value).txWrite p.frame).finish .ok := by
  have passes : sendCheck (s.latchSend p.key (Tag.ofKey p.key) p.value) = none :=
    sendCheck_eq_none hs (bit_ofKey p.key).symm hwf
  simp [sendLatched, passes, encodePayload_frame]

/-- The command that sends a payload runs its send (R96). -/
theorem exec_sendCommand {s : State} (p : Payload) (hidle : s.phase = .idle) :
    exec (decodeCommand p.sendCommand) s = .next (sendLatched (s.latchSend p.key (Tag.ofKey p.key) p.value)) := by
  rw [Payload.sendCommand]
  cases Tag.ofKey p.key
  · simp [decodeCommand_sendI, exec, execSendI, hidle]
  · simp [decodeCommand_sendF, exec, execSendF, hidle]

/-- The state in which the send of a payload ends, with `cs` still at the port. -/
def afterSend (p : Payload) (cs : List CommandWord) (s : State) : State :=
  (((s.setHostCmds cs).latchSend p.key (Tag.ofKey p.key) p.value).txWrite p.frame).finish .ok

/-- One send in the default order: one step, the frame at the tail of TXQ, the answer OK. -/
theorem step_sendCommand {s : State} {p : Payload} {cs : List CommandWord} (hwf : p.wf) (hidle : s.phase = .idle)
    (hs : s.sync = true) (hturns : s.turns = []) (hport : s.hostCmds = p.sendCommand :: cs) :
    step s = .next (afterSend p cs s) := by
  rw [step_default_host hturns hidle hport, exec_sendCommand p (s := s.setHostCmds cs) hidle,
    sendLatched_payload (s := s.setHostCmds cs) hs hwf, afterSend]

/-- Settles O52: by induction on the payloads, one step each. -/
theorem sendsWriteFramesInOrder : Obligations.SendsWriteFramesInOrder := by
  intro ps
  induction ps with
  | nil =>
    intro s _ hidle hs _ _
    exact ⟨s, rfl, hidle, hs, rfl, by simp, by simp⟩
  | cons p ps ih =>
    intro s hwf hidle hs hturns hport
    obtain ⟨hp, hps⟩ := List.forall_mem_cons.mp hwf
    have sent := step_sendCommand hp hidle hs hturns hport
    obtain ⟨t, run, idle, sync, rxq, txq, rsp⟩ := ih (afterSend p (ps.map Payload.sendCommand) s) hps rfl hs hturns rfl
    refine ⟨t, (runFor_succ ps.length sent).trans run, idle, sync, rxq, ?_, ?_⟩
    · simpa [afterSend] using txq
    · simpa [afterSend, State.response, List.replicate_succ] using rsp

/-! #### A RECV -/

/-- The value bytes of a payload's frame (R81, R82). -/
def Payload.valueBytes (p : Payload) : List Byte :=
  match Tag.ofKey p.key with
  | .integer => halfBytes (integerOf p.value)
  | .float => wordBytes p.value

theorem Payload.frame_eq (p : Payload) : p.frame = halfBytes p.key ++ p.valueBytes := by
  rw [Payload.frame, Payload.valueBytes]
  cases Tag.ofKey p.key <;> rfl

/-- With a nonzero key's bytes at the head of RXQ, RECV consumes them and waits for the value (R147, R149). -/
theorem execRecv_key {s : State} {key : Key} {q : List Byte} (hidle : s.phase = .idle) (hs : s.sync = true)
    (hk : key ≠ Config.keyNone) (hq : s.rxq = halfBytes key ++ q) :
    execRecv s = .next (recognizeFrame key (s.setRxq q)) := by
  simp only [execRecv, hidle, hs, if_true, keyStage_eq s hidle hs, hq, halfBytes, List.cons_append, List.nil_append,
    halfOfBytes_split, hk, if_false]

/-- In RX_WAIT the framer's turn takes an integer's two bytes (R150). -/
theorem framerTurn_integer {s : State} {v : IntPattern} {q : List Byte} (hwait : s.phase = .rxWait)
    (even : parity s.keyReg = false) (hq : s.rxq = halfBytes v ++ q) :
    framerTurn s = .next (((s.setRxq q).latchResult s.keyReg .integer (resultOfInteger v)).finish .ok) := by
  have unit : fetchUnit s = some (.decInt s.keyReg) := by simp [fetchUnit, hwait, even]
  have taken : takeInteger s = ((s.setRxq q).latchResult s.keyReg .integer (resultOfInteger v)).finish .ok := by
    simp [takeInteger, rxRead_two, hq, halfBytes, halfOfBytes_split]
  rw [framerTurn, unit, ← taken]
  exact execDecInt_rxWait s hwait even

/-- In RX_WAIT the framer's turn takes a float's four bytes (R151). -/
theorem framerTurn_float {s : State} {v : Value} {q : List Byte} (hwait : s.phase = .rxWait)
    (odd : parity s.keyReg = true) (hq : s.rxq = wordBytes v ++ q) :
    framerTurn s = .next (((s.setRxq q).latchResult s.keyReg .float v).finish .ok) := by
  have unit : fetchUnit s = some (.decFlt s.keyReg) := by simp [fetchUnit, hwait, odd]
  have taken : takeFloat s = ((s.setRxq q).latchResult s.keyReg .float v).finish .ok := by
    simp [takeFloat, rxRead_four, hq, wordBytes, wordOfBytes_split]
  rw [framerTurn, unit, ← taken]
  exact execDecFlt_rxWait s hwait odd

/-- The value stage in the default order: with all value bytes buffered, one step delivers them. -/
theorem step_valueStage {s : State} {p : Payload} {q : List Byte} (hwait : s.phase = .rxWait)
    (hturns : s.turns = []) (hkey : s.keyReg = p.key) (hq : s.rxq = p.valueBytes ++ q) :
    step s = .next (((s.setRxq q).latchResult p.key (Tag.ofKey p.key) p.delivered).finish .ok) := by
  rw [Payload.delivered]
  rw [Payload.valueBytes] at hq
  cases hp : parity p.key <;> simp only [Tag.ofKey, hp, if_true, Bool.false_eq_true, if_false] at hq ⊢
  · have enabled : framerEnabled s = true := by simp [framerEnabled, hwait, hkey, hp, rxAvail, hq, halfBytes]
    rw [step_default_framer hturns enabled, framerTurn_integer hwait (hkey ▸ hp) hq, hkey]
  · have enabled : framerEnabled s = true := by simp [framerEnabled, hwait, hkey, hp, rxAvail, hq, wordBytes]
    rw [step_default_framer hturns enabled, framerTurn_float hwait (hkey ▸ hp) hq, hkey]

/-- The state in which the RECV of a payload's frame ends, with `cs` still at the port and `q` behind the frame. -/
def afterRecv (p : Payload) (cs : List CommandWord) (q : List Byte) (s : State) : State :=
  ((((s.setHostCmds cs).setRxq q).setKeyReg p.key).latchResult p.key (Tag.ofKey p.key) p.delivered).finish .ok

/-- One RECV in the default order: two steps take the frame at the head of RXQ and answer with its payload (R154). -/
theorem runFor_recv_frame {s : State} {p : Payload} {cs : List CommandWord} {q : List Byte} (hwf : p.wf)
    (hidle : s.phase = .idle) (hs : s.sync = true) (hturns : s.turns = [])
    (hport : s.hostCmds = encodeCommand .recv :: cs) (hq : s.rxq = p.frame ++ q) :
    runFor 2 s = .next (afterRecv p cs q s) := by
  have hq' : s.rxq = halfBytes p.key ++ (p.valueBytes ++ q) := by rw [hq, p.frame_eq, List.append_assoc]
  have keyTaken : step s = .next (recognizeFrame p.key ((s.setHostCmds cs).setRxq (p.valueBytes ++ q))) := by
    rw [step_default_host hturns hidle hport, decodeCommand_recv]
    exact execRecv_key (s := s.setHostCmds cs) hidle hs hwf hq'
  have valueTaken := step_valueStage (p := p) (q := q)
    (s := recognizeFrame p.key ((s.setHostCmds cs).setRxq (p.valueBytes ++ q))) rfl hturns rfl rfl
  rw [runFor_succ 1 keyTaken, runFor_succ 0 valueTaken]
  rfl

/-- Settles O51: by induction on the payloads, two steps each. -/
theorem framesAreDecodedInOrder : Obligations.FramesAreDecodedInOrder := by
  intro ps rest
  induction ps with
  | nil =>
    intro s _ hidle _ _ hport hq
    exact ⟨s, rfl, hidle, hport, hq, rfl, by simp⟩
  | cons p ps ih =>
    intro s hwf hidle hs hturns hport hq
    obtain ⟨hp, hps⟩ := List.forall_mem_cons.mp hwf
    have hq' : s.rxq = p.frame ++ (ps.flatMap Payload.frame ++ rest) := by simp [hq]
    have received := runFor_recv_frame hp hidle hs hturns hport hq'
    obtain ⟨t, run, idle, cmds, rxq, txq, rsp⟩ :=
      ih (afterRecv p (List.replicate ps.length (encodeCommand .recv)) (ps.flatMap Payload.frame ++ rest) s)
        hps rfl hs hturns rfl rfl
    refine ⟨t, ?_, idle, cmds, rxq, txq, ?_⟩
    · rw [List.length_cons, Nat.mul_succ, Nat.add_comm, runFor_add 2 _ received, run]
    · simpa [afterRecv, State.response, Payload.response] using rsp

end Sys2Proof.Machine
end

/-! ### Decoding what the encoder writes (R80 to R97) -/

section
namespace Sys2Proof

/-! #### The wire rows -/

/-- Key 0 has priority (R90). -/
theorem decodeKey_keyNone : decodeKey Config.keyNone = .decKey0 := by decide

theorem decodeKey_even {key : Key} (nonzero : key ≠ Config.keyNone) (even : parity key = false) :
    decodeKey key = .decInt key := by
  rw [decodeKey, classifyKey_integer.mpr ⟨nonzero, even⟩]

theorem decodeKey_odd {key : Key} (odd : parity key = true) : decodeKey key = .decFlt key := by
  rw [decodeKey, classifyKey_float.mpr odd]

/-- A key's two bytes decode to the row of the key. -/
theorem decode_of_decodeKey {key : Key} {i : Instr} (h : decodeKey key = i) :
    decode .wireFrame (halfBytes key) = .ok i := by
  rw [Machine.decode_halfBytes, h]

/-- A frame of an even key, key 0 among them, decodes to ENC.INT (R81; log 8). -/
theorem decode_integerFrame {key : Key} (val : IntPattern) (even : parity key = false) :
    decode .encode (integerFrame key val) = .ok (.encInt key val) := by
  simp [decode, integerFrame, halfBytes, decodeOutbound, halfOfBytes_split, even]

/-- A frame of an odd key decodes to ENC.FLT (R82). -/
theorem decode_floatFrame {key : Key} (pattern : Value) (odd : parity key = true) :
    decode .encode (floatFrame key pattern) = .ok (.encFlt key pattern) := by
  simp [decode, floatFrame, halfBytes, wordBytes, decodeOutbound, halfOfBytes_split, wordOfBytes_split, odd]

/-- Settles O4: key 0 by its priority, any other key by bit 0; the bytes' rows are the definition's. -/
theorem wireRowsPartition : Obligations.WireRowsPartition := by
  refine ⟨fun key => ?_, fun b => rfl⟩
  by_cases h : key = 0
  · rw [if_pos h, h]
    exact decodeKey_keyNone
  · rw [if_neg h]
    exact Machine.decodeKey_of_ne_zero h

/-! #### The command rows by opcode and tag (R96) -/

section
variable {cw : CommandWord}

theorem decodeCommand_of_op_zero (h : CommandWord.op cw = 0) : decodeCommand cw = .openLink := by
  rw [decodeCommand, if_pos h]

theorem decodeCommand_of_op_one (h : CommandWord.op cw = 1) :
    decodeCommand cw =
      if CommandWord.tag cw then .sendF (CommandWord.key cw) (CommandWord.val cw)
      else .sendI (CommandWord.key cw) (CommandWord.val cw) := by
  rw [decodeCommand, h]
  rfl

theorem decodeCommand_of_op_two (h : CommandWord.op cw = 2) : decodeCommand cw = .recv := by
  rw [decodeCommand, h]
  rfl

theorem decodeCommand_of_op_three (h : CommandWord.op cw = 3) : decodeCommand cw = .cmdReserved := by
  rw [decodeCommand, h]
  rfl

/-- CW[2:0] is the tag above the opcode (R95). -/
theorem lowBits_eq_tag_append_op (cw : CommandWord) :
    cw.extractLsb' 0 3 = BitVec.ofBool (CommandWord.tag cw) ++ CommandWord.op cw := by
  apply BitVec.eq_of_getLsbD_eq
  intro i hi
  rw [BitVec.getLsbD_append]
  by_cases h : i < 2
  · simp [CommandWord.op, h, hi]
  · obtain rfl : i = 2 := by omega
    simp [CommandWord.tag]

/-- The mask 011 leaves the opcode. -/
theorem op_of_mask_three {op : BitVec 2} (h : cw.extractLsb' 0 3 &&& 0b011 = op.setWidth 3) :
    CommandWord.op cw = op := by
  have masked : ∀ (tag : Bool) (op : BitVec 2), (BitVec.ofBool tag ++ op) &&& 0b011 = op.setWidth 3 := by decide
  rw [lowBits_eq_tag_append_op, masked] at h
  simpa using congrArg (BitVec.setWidth 2) h

/-- The mask 111 leaves the tag and the opcode. -/
theorem tag_op_of_mask_seven {tag : Bool} {op : BitVec 2}
    (h : cw.extractLsb' 0 3 &&& 0b111 = BitVec.ofBool tag ++ op) :
    CommandWord.tag cw = tag ∧ CommandWord.op cw = op := by
  have fields : ∀ (tag tag' : Bool) (op op' : BitVec 2),
      (BitVec.ofBool tag ++ op) &&& 0b111 = BitVec.ofBool tag' ++ op' → tag = tag' ∧ op = op' := by decide
  rw [lowBits_eq_tag_append_op] at h
  exact fields _ _ _ _ h

end

/-- Settles O5: a mask of 011 fixes the opcode, a mask of 111 the tag beside it, and these select the row. -/
theorem commandRowsByMatchAndMask : Obligations.CommandRowsByMatchAndMask := by
  intro cw
  refine ⟨fun h => ?_, fun h => ?_, fun h => ?_, fun h => ?_, fun h => ?_⟩
  · exact decodeCommand_of_op_zero (op_of_mask_three h)
  · obtain ⟨htag, hop⟩ := tag_op_of_mask_seven (tag := false) (op := 1) h
    rw [decodeCommand_of_op_one hop, htag]
    rfl
  · obtain ⟨htag, hop⟩ := tag_op_of_mask_seven (tag := true) (op := 1) h
    rw [decodeCommand_of_op_one hop, htag]
    rfl
  · exact decodeCommand_of_op_two (op_of_mask_three h)
  · exact decodeCommand_of_op_three (op_of_mask_three h)

/-! #### The round trip -/

/-- A command word's seven bytes decode to the row of the word (log 11). -/
theorem decode_of_decodeCommand {cw : CommandWord} {i : Instr} (h : decodeCommand cw = i) :
    decode .command (commandBytes cw) = .ok i := by
  rw [decode_commandBytes, h]

/-- Settles O1: row by row, in the order of the contexts; a wire row by its key's class or its byte, a frame by
splitting and assembly, a command through its seven bytes. -/
theorem decodeOfEncodeIsIdentity : Obligations.DecodeOfEncodeIsIdentity := by
  intro i wf
  cases i with
  | decKey0 => exact decode_of_decodeKey decodeKey_keyNone
  | decInt key =>
    obtain ⟨nonzero, even⟩ : key ≠ Config.keyNone ∧ parity key = false := by simpa [Instr.wellFormed] using wf
    exact decode_of_decodeKey (decodeKey_even nonzero even)
  | decFlt key => exact decode_of_decodeKey (decodeKey_odd wf)
  | hsSentinel => rfl
  | hsOther b =>
    have other : b ≠ Config.sentinel := by simpa [Instr.wellFormed] using wf
    exact congrArg Except.ok (if_neg other)
  | encInt key val => exact decode_integerFrame val (by simpa [Instr.wellFormed] using wf)
  | encFlt key pattern => exact decode_floatFrame pattern wf
  | hsTx => rfl
  | openLink => exact decode_of_decodeCommand (decodeCommand_of_op_zero (op_commandWord ..))
  | sendI key val => exact decode_of_decodeCommand (decodeCommand_sendI val key)
  | sendF key val => exact decode_of_decodeCommand (decodeCommand_sendF val key)
  | recv => exact decode_of_decodeCommand decodeCommand_recv
  | cmdReserved => exact decode_of_decodeCommand (decodeCommand_of_op_three (op_commandWord ..))

/-! #### Written-out words, and fields (R81 to R87) -/

/-- Settles O2: each word is decoded by evaluation. -/
theorem specWordsDecode : Obligations.SpecWordsDecode :=
  ⟨rfl, rfl, rfl, rfl, rfl, rfl, rfl, rfl, rfl, rfl, rfl, rfl⟩

/-- Settles O3: shifting and or-ing bytes is concatenation, and splitting inverts it. -/
theorem assemblyInvertsSplitting : Obligations.AssemblyInvertsSplitting :=
  ⟨halfOfBytes_eq_append, wordOfBytes_eq_append, fun v => ⟨rfl, halfOfBytes_split v⟩,
    fun v => ⟨rfl, wordOfBytes_split v⟩⟩

end Sys2Proof
end

/-! ### The encode rows, and the answer of every row and step -/

section
namespace Sys2Proof.Machine

/-! #### ENC.INT and ENC.FLT (R131 to R133) -/

theorem emitPayload_of_parity {key : Key} {tag : Tag} (h : parity key = tag.bit) (v : Value) (s : State) :
    emitPayload key tag v s =
      .next (s.txWrite (if tag = .integer then integerFrame key (integerOf v) else floatFrame key v)) := by
  rw [emitPayload, encodePayload_eq, if_pos h]

theorem emitPayload_of_wrongParity {key : Key} {tag : Tag} (h : parity key ≠ tag.bit) (v : Value) (s : State) :
    emitPayload key tag v s = .next (s.raise .invalidKeyParity) := by
  rw [emitPayload, encodePayload_eq, if_neg h]

/-- Settles O16: the right parity writes the frame, the wrong one raises. -/
theorem frameUnitsAppendTheirBytes : Obligations.FrameUnitsAppendTheirBytes := by
  intro s
  refine ⟨fun k v even => ?_, fun k v odd => ?_, fun k v w => ⟨fun odd => ?_, fun even => ?_⟩⟩
  · refine (emitPayload_of_parity (tag := .integer) even (v.setWidth 32) s).trans ?_
    rw [integerOf_setWidth]
    rfl
  · exact emitPayload_of_parity (tag := .float) odd v s
  · exact emitPayload_of_wrongParity (tag := .integer) (ne_of_eq_of_ne odd (by decide)) _ s
  · exact emitPayload_of_wrongParity (tag := .float) (ne_of_eq_of_ne even (by decide)) w s

/-! #### Nothing stops (R177, R223) -/

/-- An outcome with a known effect is a next state. -/
theorem next_of_effect {o : Host.Outcome State Fault Refusal} {P : State → Prop} (h : ∃ t, o = .next t ∧ P t) :
    ∃ t, o = .next t :=
  h.imp fun _ => And.left

theorem execDecKey0_next (s : State) : ∃ t, execDecKey0 s = .next t := by
  rw [execDecKey0]
  split <;> exact ⟨_, rfl⟩

theorem execDecInt_next (key : Key) (s : State) : ∃ t, execDecInt key s = .next t := by
  rw [execDecInt]
  split_ifs <;> exact ⟨_, rfl⟩

theorem execDecFlt_next (key : Key) (s : State) : ∃ t, execDecFlt key s = .next t := by
  rw [execDecFlt]
  split_ifs <;> exact ⟨_, rfl⟩

theorem emitPayload_next (key : Key) (tag : Tag) (v : Value) (s : State) :
    ∃ t, emitPayload key tag v s = .next t := by
  by_cases h : parity key = tag.bit
  · exact ⟨_, emitPayload_of_parity h v s⟩
  · exact ⟨_, emitPayload_of_wrongParity h v s⟩

/-- No row of the table faults or refuses (log 23). -/
theorem exec_next (i : Instr) (s : State) : ∃ t, exec i s = .next t := by
  cases i with
  | decKey0 => exact execDecKey0_next s
  | decInt key => exact execDecInt_next key s
  | decFlt key => exact execDecFlt_next key s
  | hsSentinel => exact next_of_effect (execHsSentinel_effect s)
  | hsOther b => exact next_of_effect (execHsOther_effect b s)
  | encInt key val => exact emitPayload_next key .integer (val.setWidth 32) s
  | encFlt key pattern => exact emitPayload_next key .float pattern s
  | hsTx => exact next_of_effect (execHsTx_effect s)
  | openLink => exact next_of_effect (execOpen_effect s)
  | sendI key val => exact next_of_effect (execSendI_effect key val s)
  | sendF key val => exact next_of_effect (execSendF_effect key val s)
  | recv => exact next_of_effect (execRecv_effect s)
  | cmdReserved => exact next_of_effect (execCmdReserved_effect s)

/-- Settles O36: every row answers next, and so does every turn. -/
theorem nothingStopsTheMachine : Obligations.NothingStopsTheMachine :=
  ⟨exec_next, fun s => next_of_effect (takeTurn_effect (nextTurn s).1 (nextTurn s).2)⟩

end Sys2Proof.Machine
end

/-! ### ESTABLISH: the framer's steps in a handshake -/

section
namespace Sys2Proof.Machine

variable {s : State}

/-! #### The units and the sequencer's own steps, where they are enabled -/

/-- HSCOUNT counts one more and stays at the greatest count (R111). -/
theorem hsCountNext_eq_min (n : BitVec 16) :
    hsCountNext n = BitVec.ofNat 16 (min (n.toNat + 1) (2 ^ 16 - 1)) := by
  unfold hsCountNext
  split
  · next full => rw [full]; rfl
  · next below =>
    have lt : n.toNat ≠ 2 ^ 16 - 1 := fun h => below (BitVec.eq_of_toNat_eq (h.trans BitVec.toNat_allOnes.symm))
    have fits : n.toNat + 1 ≤ 2 ^ 16 - 1 := by have := n.isLt; omega
    rw [min_eq_left fits, BitVec.ofNat_add, BitVec.ofNat_toNat, BitVec.setWidth_eq]
    rfl

theorem toNat_hsCountNext {n : BitVec 16} (below : n.toNat + 1 < 2 ^ 16) : (hsCountNext n).toNat = n.toNat + 1 := by
  rw [hsCountNext_eq_min, BitVec.toNat_ofNat]
  omega

theorem setPhase_self {p : Phase} (hp : s.phase = p) : s.setPhase p = s := by
  subst hp
  rfl

/-- One sentinel out and counted, the scan begun (R111). -/
def sentinelSent (s : State) : State :=
  ((s.txWrite [Config.sentinel]).setHsCount (hsCountNext s.hsCount)).setPhase .hsScan

/-- HS.TX in its phase (R111). -/
theorem execHsTx_hsSend (hp : s.phase = .hsSend) : execHsTx s = .next (sentinelSent s) :=
  if_pos hp

/-- HS.SENTINEL with its byte at the head of RXQ (R113). -/
theorem execHsSentinel_head {q : List Byte} (hp : s.phase = .hsScan) (hq : s.rxq = Config.sentinel :: q) :
    execHsSentinel s = .next (((s.setRxq q).setSync true).finish .ok) := by
  simp [execHsSentinel, rxRead_one, hp, hq]

/-- HS.OTHER with its byte at the head of RXQ (R114). -/
theorem execHsOther_head {b : Byte} {q : List Byte} (hp : s.phase = .hsScan) (hq : s.rxq = b :: q)
    (other : b ≠ Config.sentinel) : execHsOther b s = .next (s.setRxq q) := by
  have scanning : (s.setRxq q).setPhase .hsScan = s.setRxq q := setPhase_self hp
  simp [execHsOther, rxRead_one, hp, hq, other, scanning]

theorem framerTurn_hsSend (hp : s.phase = .hsSend) : framerTurn s = execHsTx s := by
  simp [framerTurn, fetchUnit, hp, exec]

theorem framerTurn_emptyScan (hp : s.phase = .hsScan) (hq : s.rxq = []) : framerTurn s = .next (hsScanEmpty s) := by
  simp [framerTurn, fetchUnit, sequencerStep, hp, hq]

theorem framerTurn_hsWait (hp : s.phase = .hsWait) : framerTurn s = .next (hsWaitOver s) := by
  simp [framerTurn, fetchUnit, sequencerStep, hp]

/-! #### The end of the wait (R115, R116) -/

theorem timeoutReached_iff (s : State) :
    timeoutReached s = true ↔ s.params.hsTimeoutCount ≠ 0 ∧ s.params.hsTimeoutCount ≤ s.hsCount.toNat := by
  simp [timeoutReached]

theorem timeoutReached_eq_false_iff (s : State) :
    timeoutReached s = false ↔ s.params.hsTimeoutCount = 0 ∨ s.hsCount.toNat < s.params.hsTimeoutCount := by
  rw [← Bool.not_eq_true, timeoutReached_iff]
  omega

theorem hsWaitOver_of_timer_ne_zero (running : s.hsTimer ≠ 0) : hsWaitOver s = s :=
  if_neg running

theorem hsWaitOver_retransmits (ended : s.hsTimer = 0)
    (below : s.params.hsTimeoutCount = 0 ∨ s.hsCount.toNat < s.params.hsTimeoutCount) :
    hsWaitOver s = s.setPhase .hsSend := by
  simp [hsWaitOver, ended, (timeoutReached_eq_false_iff s).mpr below]

theorem hsWaitOver_timesOut (ended : s.hsTimer = 0) (bound : s.params.hsTimeoutCount ≠ 0)
    (reached : s.params.hsTimeoutCount ≤ s.hsCount.toNat) : hsWaitOver s = s.finish .handshakeTimeout := by
  simp [hsWaitOver, ended, (timeoutReached_iff s).mpr ⟨bound, reached⟩]

/-! #### The rules of spec 40, one by one -/

/-- Settles O9: the state HS.TX answers, with HSCOUNT's saturating count written as a minimum. -/
theorem hsTxSendsOneSentinel : Obligations.HsTxSendsOneSentinel := by
  intro s hp
  refine (execHsTx_hsSend hp).trans ?_
  rw [sentinelSent, hsCountNext_eq_min]
  rfl

/-- Settles O10: with nothing to scan the framer's turn is the sequencer's own step. -/
theorem emptyScanStartsTheWait : Obligations.EmptyScanStartsTheWait := by
  intro s ts hturn hp hq
  rw [step_cons hturn]
  exact framerTurn_emptyScan (s := s.setTurns ts) hp hq

/-- Settles O11: HS.SENTINEL with its byte at the head. -/
theorem sentinelCompletesOpen : Obligations.SentinelCompletesOpen := by
  intro s q hp hq
  exact execHsSentinel_head hp hq

/-- Settles O12: HS.OTHER with its byte at the head. -/
theorem otherByteIsDropped : Obligations.OtherByteIsDropped := by
  intro s b q hp hq other
  exact execHsOther_head hp hq other

/-- The framer's turn in HS_WAIT, by HSTIMER and the bound (R115, R116). -/
theorem step_framer_hsWait {ts : List Turn} (hturn : s.turns = .framer :: ts) (hp : s.phase = .hsWait) :
    step s = .next (hsWaitOver (s.setTurns ts)) := by
  rw [step_cons hturn]
  exact framerTurn_hsWait (s := s.setTurns ts) hp

/-- Settles O13: the framer's turn is the end of the wait, case by case; a tick is HSTIMER's count and what the wrapper
does beside it. -/
theorem waitEndsByRetransmissionOrTimeout : Obligations.WaitEndsByRetransmissionOrTimeout := by
  refine ⟨fun s ts hturn hp => ⟨fun running => ?_, fun ended below => ?_, fun ended bound reached => ?_⟩,
    fun s ts line hturn bare => ?_, fun s ts line hturn => ?_⟩
  · rw [step_framer_hsWait hturn hp, hsWaitOver_of_timer_ne_zero (s := s.setTurns ts) running]
    rfl
  · rw [step_framer_hsWait hturn hp, hsWaitOver_retransmits (s := s.setTurns ts) ended below]
    rfl
  · rw [step_framer_hsWait hturn hp, hsWaitOver_timesOut (s := s.setTurns ts) ended bound reached]
    rfl
  · have tick : step s = .next ((s.setTurns ts).setHsTimer
        (if s.phase = .hsWait then s.hsTimer - 1 else s.hsTimer)) :=
      (step_cons hturn).trans (congrArg _ (timeTick_noWrapper line (s.setTurns ts) bare))
    refine ⟨fun hp => ?_, fun hp => ?_⟩
    · rw [tick, if_pos hp]
      rfl
    · rw [tick, if_neg hp]
      rfl
  · have tick : step s = .next (timeTick line (s.setTurns ts)) := step_cons hturn
    have timer := timeTick_hsTimer line (s.setTurns ts)
    obtain ⟨n, u, q, changes, hq⟩ := timeTick_changes line (s.setTurns ts)
    rw [changes] at tick timer
    obtain rfl : n = if s.phase = .hsWait then s.hsTimer - 1 else s.hsTimer := timer
    exact ⟨u, q, tick, hq.imp_right fun ⟨b, appended, _⟩ => ⟨b, appended⟩⟩

end Sys2Proof.Machine
end

/-! ### ESTABLISH: the bound on a handshake with a silent peer -/

section
namespace Sys2Proof.Machine

variable {s : State}

/-! #### One turn of the loop in the default order (log 2) -/

/-- While the framer waits in an operation, the default order lets time pass. -/
theorem step_default_tick (hturns : s.turns = []) (busy : s.phase ≠ .idle) (waits : framerEnabled s = false) :
    step s = .next (timeTick true s) := by
  have time : defaultTurn s = .time true := by simp [defaultTurn, waits, busy]
  rw [step, nextTurn_nil hturns, time]
  rfl

/-- HSTIMER runs out, one tick a step (R32, R115). -/
theorem runFor_ticks (n : Nat) {s : State} (bare : s.params.uartWrapper = false) (hturns : s.turns = [])
    (hp : s.phase = .hsWait) (timer : s.hsTimer = n) : runFor n s = .next (s.setHsTimer 0) := by
  induction n generalizing s with
  | zero =>
    have stopped : s.setHsTimer 0 = s := by
      rw [← timer]
      rfl
    rw [stopped, runFor]
  | succ n ih =>
    have waits : framerEnabled s = false := by simp [framerEnabled, hp, timer]
    have tick : step s = .next (s.setHsTimer n) := by
      rw [step_default_tick hturns (by simp [hp]) waits, timeTick_noWrapper true s bare, if_pos hp, timer]
      rfl
    rw [runFor_succ n tick]
    exact ih (s := s.setHsTimer n) bare hturns hp rfl

/-- A sentinel sent, nothing found in RXQ, the interval over: where R116 decides. -/
def intervalSpent (s : State) : State :=
  ((sentinelSent s).setHsTimer 0).setPhase .hsWait

theorem runFor_interval (bare : s.params.uartWrapper = false) (hturns : s.turns = []) (hp : s.phase = .hsSend)
    (hq : s.rxq = []) : runFor (hsIntervalTicks s.params + 2) s = .next (intervalSpent s) := by
  have sends : step s = .next (sentinelSent s) := by
    rw [step_default_framer hturns (by simp [framerEnabled, hp]), framerTurn_hsSend hp, execHsTx_hsSend hp]
  have scans : step (sentinelSent s) = .next (hsScanEmpty (sentinelSent s)) :=
    (step_default_framer (s := sentinelSent s) hturns rfl).trans
      (framerTurn_emptyScan (s := sentinelSent s) rfl hq)
  have waits : runFor (hsIntervalTicks s.params) (hsScanEmpty (sentinelSent s)) = .next (intervalSpent s) :=
    runFor_ticks (hsIntervalTicks s.params) (s := hsScanEmpty (sentinelSent s)) bare hturns rfl rfl
  rw [runFor_succ _ sends, runFor_succ _ scans, waits]

/-- One turn of the loop with a silent peer: two steps, the interval's ticks, and the decision (R111 to R116). -/
theorem runFor_silentRound (bare : s.params.uartWrapper = false) (hturns : s.turns = []) (hp : s.phase = .hsSend)
    (hq : s.rxq = []) :
    runFor (hsIntervalTicks s.params + 3) s = .next (hsWaitOver (intervalSpent s)) := by
  have decides : step (intervalSpent s) = .next (hsWaitOver (intervalSpent s)) :=
    (step_default_framer (s := intervalSpent s) hturns rfl).trans (framerTurn_hsWait (s := intervalSpent s) rfl)
  rw [runFor_add (hsIntervalTicks s.params + 2) 1 (runFor_interval bare hturns hp hq), runFor_succ 0 decides]
  rfl

/-! #### The rounds to the bound -/

/-- The state in which the handshake gives up, `n` sentinels later, with HSCOUNT at the bound (R116). -/
def gaveUp (n : Nat) (s : State) : State :=
  (((s.txWrite (List.replicate n Config.sentinel)).setHsCount (BitVec.ofNat 16 s.params.hsTimeoutCount)).setHsTimer
    0).finish .handshakeTimeout

/-- The sentinel of a round before the last is one of those sent. -/
theorem gaveUp_succ (n : Nat) (s : State) :
    gaveUp n ((intervalSpent s).setPhase .hsSend) = gaveUp (n + 1) s := by
  simp [gaveUp, intervalSpent, sentinelSent, State.txWrite, State.setHsCount, State.setHsTimer, State.setPhase,
    State.finish, State.response, List.replicate_succ]

/-- The round that brings HSCOUNT to the bound is the last (R116). -/
theorem runFor_lastRound (bare : s.params.uartWrapper = false) (hturns : s.turns = []) (hp : s.phase = .hsSend)
    (hq : s.rxq = []) (fits : s.params.hsTimeoutCount < 2 ^ 16)
    (last : s.hsCount.toNat + 1 = s.params.hsTimeoutCount) :
    runFor (hsIntervalTicks s.params + 3) s = .next (gaveUp 1 s) := by
  have count : (hsCountNext s.hsCount).toNat = s.params.hsTimeoutCount :=
    (toNat_hsCountNext (last ▸ fits)).trans last
  have atBound : hsCountNext s.hsCount = BitVec.ofNat 16 s.params.hsTimeoutCount := by
    rw [← count, BitVec.ofNat_toNat, BitVec.setWidth_eq]
  have timesOut : hsWaitOver (intervalSpent s) = (intervalSpent s).finish .handshakeTimeout :=
    hsWaitOver_timesOut (s := intervalSpent s) rfl (show s.params.hsTimeoutCount ≠ 0 by omega) count.ge
  rw [runFor_silentRound bare hturns hp hq, timesOut, gaveUp, ← atBound]
  rfl

/-- A round that leaves HSCOUNT below the bound leads to the next (R116). -/
theorem runFor_roundBelow (bare : s.params.uartWrapper = false) (hturns : s.turns = []) (hp : s.phase = .hsSend)
    (hq : s.rxq = []) (below : (hsCountNext s.hsCount).toNat < s.params.hsTimeoutCount) :
    runFor (hsIntervalTicks s.params + 3) s = .next ((intervalSpent s).setPhase .hsSend) := by
  rw [runFor_silentRound bare hturns hp hq]
  exact congrArg _ (hsWaitOver_retransmits (s := intervalSpent s) rfl (.inr below))

/-- With `m + 1` rounds to go the handshake gives up after just those, by induction on `m`. -/
theorem runFor_silentRounds (m : Nat) {s : State} (bare : s.params.uartWrapper = false) (hturns : s.turns = [])
    (hp : s.phase = .hsSend) (hq : s.rxq = []) (fits : s.params.hsTimeoutCount < 2 ^ 16)
    (left : s.hsCount.toNat + (m + 1) = s.params.hsTimeoutCount) :
    runFor ((m + 1) * (hsIntervalTicks s.params + 3)) s = .next (gaveUp (m + 1) s) := by
  induction m generalizing s with
  | zero =>
    rw [Nat.zero_add, Nat.one_mul]
    exact runFor_lastRound bare hturns hp hq fits left
  | succ m ih =>
    have count : (hsCountNext s.hsCount).toNat = s.hsCount.toNat + 1 := toNat_hsCountNext (by omega)
    have round := runFor_roundBelow bare hturns hp hq (by omega)
    have left' : (hsCountNext s.hsCount).toNat + (m + 1) = s.params.hsTimeoutCount := by omega
    rw [Nat.succ_mul, Nat.add_comm, runFor_add _ _ round, ← gaveUp_succ]
    exact ih (s := (intervalSpent s).setPhase .hsSend) bare hturns rfl hq fits left'

/-- Settles O49: from HSCOUNT 0 all N rounds are to go. -/
theorem handshakeTimesOutAfterNSentinels : Obligations.HandshakeTimesOutAfterNSentinels := by
  intro N s positive fits bound bare hp count hq hturns
  obtain ⟨m, rfl⟩ : ∃ m, N = m + 1 := ⟨N - 1, by omega⟩
  have left : s.hsCount.toNat + (m + 1) = s.params.hsTimeoutCount := by
    rw [count, bound]
    exact Nat.zero_add _
  have run := runFor_silentRounds m bare hturns hp hq (bound ▸ fits) left
  have atBound : (gaveUp (m + 1) s).hsCount.toNat = m + 1 := by
    show (BitVec.ofNat 16 s.params.hsTimeoutCount).toNat = m + 1
    rw [bound, BitVec.toNat_ofNat, Nat.mod_eq_of_lt fits]
  exact ⟨gaveUp (m + 1) s, run, rfl, rfl, rfl, atBound, rfl, rfl⟩

end Sys2Proof.Machine
end

/-! ### ESTABLISH: what the agents do to a handshake -/

section
namespace Sys2Proof.Machine

/-! #### Turns and the bytes they bring -/

theorem arrivals_cons (turn : Turn) (ts : List Turn) : arrivals (turn :: ts) = arrivals [turn] ++ arrivals ts := by
  cases turn <;> rfl

theorem noReset_cons {turn : Turn} {ts : List Turn} (h : noReset (turn :: ts) = true) :
    (∀ q, turn ≠ .reset q) ∧ noReset ts = true := by
  cases turn with
  | reset q => cases h
  | _ => exact ⟨by simp, h⟩

/-- `arrived` can be what came into RXQ of a chip `p` during the turns: every byte of the peer on a chip that loses
none, some of them in order where only the bound loses bytes; the wrapper's line brings bytes of its own (R60, R198,
R244). -/
def Received (p : Params) (ts : List Turn) (arrived : List Byte) : Prop :=
  (p.rxDepth = none ∧ p.uartWrapper = false → arrived = arrivals ts) ∧
  (p.uartWrapper = false → arrived.Sublist (arrivals ts))

theorem Received.nil {p : Params} {ts : List Turn} (h : arrivals ts = []) : Received p ts [] :=
  ⟨fun _ => h.symm, fun _ => List.nil_sublist _⟩

theorem Received.cons {p : Params} {turn : Turn} {ts : List Turn} {bs arrived : List Byte}
    (first : Received p [turn] bs) (rest : Received p ts arrived) : Received p (turn :: ts) (bs ++ arrived) := by
  obtain ⟨all, some⟩ := first
  obtain ⟨allRest, someRest⟩ := rest
  rw [Received, arrivals_cons]
  exact ⟨fun lossless => by rw [all lossless, allRest lossless], fun bare => (some bare).append (someRest bare)⟩

/-- A turn of the surroundings: time or the peer moved, `bs` came into RXQ. -/
def surrounded (n : Nat) (u : Uart) (bs : List Byte) (s : State) : State :=
  ((s.setHsTimer n).setUart u).setRxq (s.rxq ++ bs)

theorem surrounded_self (s : State) : surrounded s.hsTimer s.uart [] s = s := by
  simp [surrounded, State.setHsTimer, State.setUart, State.setRxq]

theorem peerArrive_surrounded (b : Byte) (s : State) :
    ∃ bs, s.peerArrive b = surrounded s.hsTimer s.uart bs s ∧ Received s.params [.peer b] bs := by
  obtain ⟨appended, -⟩ | ⟨lost, why⟩ := peerArrive_cases s b
  · exact ⟨[b], appended, fun _ => rfl, fun _ => List.Sublist.refl _⟩
  · refine ⟨[], by rw [lost, surrounded_self], fun ⟨unbounded, bare⟩ => ?_, fun _ => List.nil_sublist _⟩
    simp [transportDeaf, rxHasRoom, unbounded, bare] at why

/-- Bytes come with a tick only over the wrapper's line (R195). -/
theorem timeTick_surrounded (line : Bool) (s : State) :
    ∃ n u bs, timeTick line s = surrounded n u bs s ∧ Received s.params [.time line] bs := by
  cases hw : s.params.uartWrapper with
  | false =>
    refine ⟨if s.phase = .hsWait then s.hsTimer - 1 else s.hsTimer, s.uart, [], ?_, .nil rfl⟩
    rw [timeTick_noWrapper line s hw, surrounded, List.append_nil]
    rfl
  | true =>
    have unconstrained (bs : List Byte) : Received s.params [.time line] bs := by simp [Received, hw]
    obtain ⟨n, u, q, changes, rfl | ⟨b, rfl, -⟩⟩ := timeTick_changes line s
    · exact ⟨n, u, [], by rw [changes, surrounded, List.append_nil], unconstrained []⟩
    · exact ⟨n, u, [b], changes, unconstrained [b]⟩

/-- With no command at the port and no reset, a turn is a rule the framer runs outside IDLE, or the surroundings'. -/
theorem TurnEffect.framer_or_surrounded {s t : State} {turn : Turn} (e : TurnEffect s turn t)
    (noCmds : s.hostCmds = []) (keeps : ∀ q, turn ≠ .reset q) :
    (turn = .framer ∧ s.phase ≠ .idle ∧ Effect s t) ∨
    ∃ n u bs, t = surrounded n u bs s ∧ Received s.params [turn] bs := by
  cases e with
  | framer t stays e =>
    by_cases hp : s.phase = .idle
    · exact .inr ⟨s.hsTimer, s.uart, [], by rw [stays hp, surrounded_self], .nil rfl⟩
    · exact .inl ⟨rfl, hp, e⟩
  | command cw cs t _ hc => cases noCmds.symm.trans hc
  | hostWaits => exact .inr ⟨s.hsTimer, s.uart, [], (surrounded_self s).symm, .nil rfl⟩
  | withdraw =>
    have same : s.setHostCmds s.hostCmds.tail = s := by rw [noCmds, List.tail_nil, ← noCmds]; rfl
    exact .inr ⟨s.hsTimer, s.uart, [], by rw [same, surrounded_self], .nil rfl⟩
  | peer b =>
    obtain ⟨bs, h⟩ := peerArrive_surrounded b s
    exact .inr ⟨_, _, bs, h⟩
  | time line => exact .inr (timeTick_surrounded line s)
  | reset q => exact absurd rfl (keeps q)

/-! #### A handshake that goes on -/

/-- The scan took `dropped` bytes off the stream `q` followed by `arrived`, none of them a sentinel, and left `q'`
(R114). -/
def ScansPast (q arrived q' : List Byte) : Prop :=
  ∃ dropped, Config.sentinel ∉ dropped ∧ q ++ arrived = dropped ++ q'

theorem ScansPast.append (q arrived : List Byte) : ScansPast q arrived (q ++ arrived) :=
  ⟨[], by simp, rfl⟩

theorem ScansPast.trans {q bs q' arrived q'' : List Byte} (first : ScansPast q bs q')
    (rest : ScansPast q' arrived q'') : ScansPast q (bs ++ arrived) q'' := by
  obtain ⟨dropped, clean, hq⟩ := first
  obtain ⟨dropped', clean', hq'⟩ := rest
  refine ⟨dropped ++ dropped', by simp [List.mem_append, clean, clean'], ?_⟩
  rw [← List.append_assoc, hq, List.append_assoc, hq', List.append_assoc]

/-- TXQ gained sentinels only, at least one when HS_SEND was left (R111). -/
def SendsSentinels (s t : State) : Prop :=
  ∃ k, t.txq = s.txq ++ List.replicate k Config.sentinel ∧ (s.phase = .hsSend → t.phase = .hsSend ∨ 1 ≤ k)

theorem SendsSentinels.of_txq_eq {s t : State} (same : t.txq = s.txq) (stays : s.phase = .hsSend → t.phase = .hsSend) :
    SendsSentinels s t :=
  ⟨0, by simp [same], fun send => .inl (stays send)⟩

theorem SendsSentinels.trans {s s1 t : State} (first : SendsSentinels s s1) (rest : SendsSentinels s1 t) :
    SendsSentinels s t := by
  obtain ⟨k, htx, left⟩ := first
  obtain ⟨k', htx', left'⟩ := rest
  refine ⟨k + k', by rw [htx', htx, List.append_assoc, List.replicate_append_replicate], fun send => ?_⟩
  obtain send1 | more := left send
  · exact (left' send1).imp_right (by omega)
  · exact .inr (by omega)

/-- From `s` the handshake went on to `t` while `arrived` came in: nothing the host reads or presents has changed. -/
structure GoesOn (s : State) (arrived : List Byte) (t : State) : Prop where
  handshake : t.phase.inHandshake = true
  sync : t.sync = s.sync
  status : t.status = s.status
  rspLog : t.rspLog = s.rspLog
  hostCmds : t.hostCmds = s.hostCmds
  params : t.params = s.params
  scans : ScansPast s.rxq arrived t.rxq
  sends : SendsSentinels s t

theorem GoesOn.surrounded {s : State} (hs : s.phase.inHandshake = true) (n : Nat) (u : Uart) (bs : List Byte) :
    GoesOn s bs (surrounded n u bs s) :=
  ⟨hs, rfl, rfl, rfl, rfl, rfl, .append s.rxq bs, .of_txq_eq rfl id⟩

/-- What a rule of spec 40 does to a handshake: it goes on, ends at the sentinel (R113), or times out (R116). -/
theorem Effect.of_handshake {s t : State} (e : Effect s t) (hs : s.phase.inHandshake = true) :
    GoesOn s [] t ∨
    (∃ q, s.phase = .hsScan ∧ s.rxq = Config.sentinel :: q ∧ t = ((s.setRxq q).setSync true).finish .ok) ∨
    (timeoutReached s = true ∧ t = s.finish .handshakeTimeout) := by
  have keepsRxq : ScansPast s.rxq [] s.rxq := ⟨[], by simp, by simp⟩
  have notSend {p : Phase} (hp : s.phase = p) (h : p ≠ .hsSend) : s.phase = .hsSend → t.phase = .hsSend :=
    fun send => absurd (hp.symm.trans send) h
  cases e with
  | stay => exact .inl ⟨hs, rfl, rfl, rfl, rfl, rfl, keepsRxq, .of_txq_eq rfl id⟩
  | transmitSentinel hp =>
    exact .inl ⟨rfl, rfl, rfl, rfl, rfl, rfl, keepsRxq, 1, rfl, fun _ => .inr le_rfl⟩
  | scanEmpty hp _ =>
    exact .inl ⟨rfl, rfl, rfl, rfl, rfl, rfl, keepsRxq, .of_txq_eq rfl (notSend hp (by decide))⟩
  | byteDropped b q hp hq other =>
    have drops : ScansPast s.rxq [] q := ⟨[b], by simpa using Ne.symm other, by simp [hq]⟩
    exact .inl ⟨rfl, rfl, rfl, rfl, rfl, rfl, drops, .of_txq_eq rfl (notSend hp (by decide))⟩
  | intervalOver hp _ _ =>
    exact .inl ⟨rfl, rfl, rfl, rfl, rfl, rfl, keepsRxq, .of_txq_eq rfl fun _ => rfl⟩
  | sentinelSeen q hp hq => exact .inr (.inl ⟨q, hp, hq, rfl⟩)
  | timedOut hp _ reached => exact .inr (.inr ⟨reached, rfl⟩)
  | opened hp | sendRefused _ _ _ _ hp _ | integerSent _ _ hp _ _ _ | floatSent _ _ hp _ _ | recvRefused hp _
  | tooFewBytes hp _ _ | keyZero _ _ _ hp _ _ _ | frameRecognized _ _ _ hp _ _ _ | integerTaken _ _ _ hp _ _
  | floatTaken _ _ _ _ _ hp _ _ | reservedOpcode hp => simp [hp, Phase.inHandshake] at hs

/-! #### Without a sentinel (R119) -/

/-- A handshake that nothing can end: no bound, no sentinel in RXQ and no line that could bring one. -/
structure Unanswered (s : State) : Prop where
  handshake : s.phase.inHandshake = true
  unbounded : s.params.hsTimeoutCount = 0
  bare : s.params.uartWrapper = false
  turns : s.turns = []
  noSentinel : Config.sentinel ∉ s.rxq

theorem Effect.turns {s t : State} (e : Effect s t) : t.turns = s.turns := by
  cases e <;> rfl

/-- In the default order one of the handshake's rules runs, or time passes (log 2). -/
theorem step_default_handshake {s : State} (hs : s.phase.inHandshake = true) (hturns : s.turns = []) :
    ∃ t, step s = .next t ∧ (Effect s t ∨ t = timeTick true s) := by
  have busy : s.phase ≠ .idle := fun idle => by simp [idle, Phase.inHandshake] at hs
  cases enabled : framerEnabled s with
  | true =>
    rw [step_default_framer hturns enabled]
    exact (framerTurn_effect s).imp fun _ ⟨ht, e⟩ => ⟨ht, .inl e⟩
  | false => exact ⟨timeTick true s, step_default_tick hturns busy enabled, .inr rfl⟩

/-- Without bytes arriving an unanswered handshake that goes on is one still. -/
theorem GoesOn.unanswered {s t : State} (on : GoesOn s [] t) (h : Unanswered s) (turns : t.turns = []) :
    Unanswered t := by
  obtain ⟨dropped, -, hq⟩ := on.scans
  rw [List.append_nil] at hq
  have noSentinel : Config.sentinel ∉ t.rxq := fun mem => h.noSentinel (hq ▸ List.mem_append_right dropped mem)
  exact ⟨on.handshake, on.params ▸ h.unbounded, on.params ▸ h.bare, turns, noSentinel⟩

theorem Unanswered.step {s : State} (h : Unanswered s) : ∃ t, step s = .next t ∧ GoesOn s [] t ∧ Unanswered t := by
  obtain ⟨t, stepped, e | rfl⟩ := step_default_handshake h.handshake h.turns
  · obtain on | ⟨q, -, hq, -⟩ | ⟨reached, -⟩ := e.of_handshake h.handshake
    · exact ⟨t, stepped, on, on.unanswered h (e.turns.trans h.turns)⟩
    · exact absurd (hq ▸ List.mem_cons_self) h.noSentinel
    · exact absurd h.unbounded ((timeoutReached_iff s).mp reached).1
  · obtain ⟨n, u, bs, ticked, -, some⟩ := timeTick_surrounded true s
    obtain rfl : bs = [] := List.sublist_nil.mp (some h.bare)
    rw [ticked] at stepped
    have on := GoesOn.surrounded h.handshake n u []
    exact ⟨_, stepped, on, on.unanswered h h.turns⟩

/-- Settles O48: by induction on the steps, each of which leaves the handshake unanswered. -/
theorem handshakeWithoutSentinelNeverEnds : Obligations.HandshakeWithoutSentinelNeverEnds := by
  intro n s hs unbounded bare hturns noSentinel
  have unanswered : Unanswered s := ⟨hs, unbounded, bare, hturns, noSentinel⟩
  clear hs unbounded bare hturns noSentinel
  induction n generalizing s with
  | zero => exact ⟨s, rfl, unanswered.handshake, rfl, rfl, rfl, rfl⟩
  | succ n ih =>
    obtain ⟨s1, stepped, on, unanswered1⟩ := unanswered.step
    obtain ⟨t, run, handshake, sync, status, rspLog, hostCmds⟩ := ih s1 unanswered1
    exact ⟨t, (runFor_succ n stepped).trans run, handshake, sync.trans on.sync, status.trans on.status,
      rspLog.trans on.rspLog, hostCmds.trans on.hostCmds⟩

/-! #### Up to the sentinel (R117) -/

/-- With no command and no reset, a block in IDLE only receives. -/
structure Rests (s : State) (arrived : List Byte) (t : State) : Prop where
  phase : t.phase = .idle
  sync : t.sync = s.sync
  status : t.status = s.status
  txq : t.txq = s.txq
  rxq : t.rxq = s.rxq ++ arrived

/-- The first step of a run over listed turns. -/
theorem exists_turn_of_runFor {s t : State} {turn : Turn} {ts : List Turn} (hturns : s.turns = turn :: ts)
    (run : runFor (turn :: ts).length s = .next t) :
    ∃ s1, TurnEffect (s.setTurns ts) turn s1 ∧ runFor ts.length s1 = .next t := by
  obtain ⟨s1, stepped, rest⟩ := exists_step_of_runFor_succ run
  have effect := step_effect stepped
  rw [nextTurn_cons hturns] at effect
  exact ⟨s1, effect, rest⟩

theorem rests_of_runFor {ts : List Turn} {s t : State} (run : runFor ts.length s = .next t) (hp : s.phase = .idle)
    (noCmds : s.hostCmds = []) (hturns : s.turns = ts) (keeps : noReset ts = true) :
    ∃ arrived, Received s.params ts arrived ∧ Rests s arrived t := by
  induction ts generalizing s with
  | nil =>
    cases run
    exact ⟨[], .nil rfl, hp, rfl, rfl, rfl, by simp⟩
  | cons turn ts ih =>
    obtain ⟨noReset1, keeps⟩ := noReset_cons keeps
    obtain ⟨s1, effect, run⟩ := exists_turn_of_runFor hturns run
    obtain ⟨-, busy, -⟩ | ⟨n, u, bs, rfl, received⟩ := effect.framer_or_surrounded noCmds noReset1
    · exact absurd hp busy
    · obtain ⟨arrived, receivedRest, rests⟩ := ih run hp noCmds rfl keeps
      refine ⟨bs ++ arrived, received.cons receivedRest, rests.phase, rests.sync, rests.status, rests.txq, ?_⟩
      rw [rests.rxq, ← List.append_assoc]
      rfl

/-- The handshake `s` was in ended at the first sentinel, while `arrived` came in (R117). -/
structure Established (s : State) (arrived : List Byte) (t : State) : Prop where
  phase : t.phase = .idle
  status : t.status = .ok
  scans : ScansPast s.rxq arrived (Config.sentinel :: t.rxq)
  sends : SendsSentinels s t

theorem GoesOn.established {s s1 t : State} {bs arrived : List Byte} (on : GoesOn s bs s1)
    (rest : Established s1 arrived t) : Established s (bs ++ arrived) t :=
  ⟨rest.phase, rest.status, on.scans.trans rest.scans, on.sends.trans rest.sends⟩

/-- The list of turns is no part of what a handshake did. -/
theorem Established.of_setTurns {s t : State} {ts : List Turn} {arrived : List Byte}
    (h : Established (s.setTurns ts) arrived t) : Established s arrived t :=
  ⟨h.phase, h.status, h.scans, h.sends⟩

/-- The step at the sentinel (R113), and the rest after it. -/
theorem established_of_sentinel {s t : State} {q arrived : List Byte} (hp : s.phase = .hsScan)
    (hq : s.rxq = Config.sentinel :: q) (rests : Rests (((s.setRxq q).setSync true).finish .ok) arrived t) :
    Established s arrived t := by
  have scans : ScansPast s.rxq arrived (Config.sentinel :: t.rxq) := ⟨[], by simp, by rw [hq, rests.rxq]; rfl⟩
  have sends : SendsSentinels s t := .of_txq_eq rests.txq fun send => by cases hp.symm.trans send
  exact ⟨rests.phase, rests.status, scans, sends⟩

/-- A handshake in progress that ends with SYNC set, for every order of turns: by induction on them. -/
theorem established_of_runFor {ts : List Turn} {s t : State} (run : runFor ts.length s = .next t)
    (hs : s.phase.inHandshake = true) (unsync : s.sync = false) (noCmds : s.hostCmds = []) (hturns : s.turns = ts)
    (keeps : noReset ts = true) (synced : t.sync = true) :
    ∃ arrived, Received s.params ts arrived ∧ Established s arrived t := by
  induction ts generalizing s with
  | nil =>
    cases run
    cases unsync.symm.trans synced
  | cons turn ts ih =>
    obtain ⟨noReset1, keeps⟩ := noReset_cons keeps
    obtain ⟨s1, effect, run⟩ := exists_turn_of_runFor hturns run
    have goesOn {bs : List Byte} (on : GoesOn (s.setTurns ts) bs s1) (turns : s1.turns = ts)
        (received : Received s.params [turn] bs) :
        ∃ arrived, Received s.params (turn :: ts) arrived ∧ Established s arrived t := by
      obtain ⟨arrived, receivedRest, rest⟩ :=
        ih run on.handshake (on.sync.trans unsync) (on.hostCmds.trans noCmds) turns keeps
      rw [on.params] at receivedRest
      exact ⟨bs ++ arrived, received.cons receivedRest, (on.established rest).of_setTurns⟩
    obtain ⟨rfl, -, e⟩ | ⟨n, u, bs, rfl, received⟩ := effect.framer_or_surrounded noCmds noReset1
    · obtain on | ⟨q, hp, hq, rfl⟩ | ⟨-, rfl⟩ := e.of_handshake hs
      · exact goesOn on e.turns (.nil rfl)
      · obtain ⟨arrived, received, rests⟩ := rests_of_runFor run rfl noCmds rfl keeps
        exact ⟨arrived, received, (established_of_sentinel hp hq rests).of_setTurns⟩
      · obtain ⟨arrived, -, rests⟩ := rests_of_runFor run rfl noCmds rfl keeps
        cases (unsync.symm.trans rests.sync.symm).trans synced
    · exact goesOn (.surrounded (s := s.setTurns ts) hs n u bs) rfl received

/-- Settles O47: a handshake that ended in IDLE has left HS_SEND, so its sentinel is among those sent. -/
theorem handshakeConsumesUpToTheFirstSentinel : Obligations.HandshakeConsumesUpToTheFirstSentinel := by
  intro s t hs unsync noCmds keeps run synced
  obtain ⟨arrived, ⟨all, some⟩, established⟩ := established_of_runFor run hs unsync noCmds rfl keeps synced
  obtain ⟨dropped, clean, hq⟩ := established.scans
  obtain ⟨k, htx, left⟩ := established.sends
  have sent (send : s.phase = .hsSend) : 1 ≤ k :=
    (left send).resolve_left fun still => by cases established.phase.symm.trans still
  exact ⟨established.phase, established.status, arrived, dropped, k, all, some, clean, hq, htx, sent⟩

end Sys2Proof.Machine
end

/-! ### ENCODE (R130 to R135) -/

section
namespace Sys2Proof.Machine

/-! #### The frame, or the parity error -/

/-- A key of the tag's parity gives the tag's frame (R131, R132). -/
theorem encodePayload_of_parity {key : Key} {tag : Tag} (h : parity key = tag.bit) (v : Value) :
    encodePayload key tag v =
      .ok (if tag = .integer then integerFrame key (integerOf v) else floatFrame key v) := by
  rw [encodePayload_eq, if_pos h]

/-- A key of the other parity gives no bytes (R133). -/
theorem encodePayload_of_wrongParity {key : Key} {tag : Tag} (h : parity key ≠ tag.bit) (v : Value) :
    encodePayload key tag v = .error .invalidKeyParity := by
  rw [encodePayload_eq, if_neg h]

/-- The bytes of bits 15:0 of a value are its own bytes 0 and 1 (R131). -/
theorem halfBytes_integerOf (v : Value) : halfBytes (integerOf v) = [v.extractLsb' 0 8, v.extractLsb' 8 8] := by
  simp [halfBytes, integerOf, BitVec.extractLsb'_extractLsb'_of_le]

/-- Settles O14: the right parity gives the frame, the wrong one the error. -/
theorem encodeGivesTheFrame : Obligations.EncodeGivesTheFrame := by
  intro k v
  refine ⟨fun even => ?_, fun odd => ?_, fun odd => ?_, fun even => ?_⟩
  · refine (encodePayload_of_parity (tag := .integer) even v).trans ?_
    rw [if_pos rfl, integerFrame, halfBytes_integerOf]
    rfl
  · exact encodePayload_of_parity (tag := .float) odd v
  · exact encodePayload_of_wrongParity (tag := .integer) (ne_of_eq_of_ne odd (by decide)) v
  · exact encodePayload_of_wrongParity (tag := .float) (ne_of_eq_of_ne even (by decide)) v

/-! #### Injectivity: the frame determines the unit that emits it -/

/-- The encode row whose word ENCODE gives: it holds all of the payload that the bytes do (R97, R131, R132). -/
def frameUnit (key : Key) (v : Value) : Tag → Instr
  | .integer => .encInt key (integerOf v)
  | .float => .encFlt key v

/-- ENCODE gives bytes only where the parity is the tag's, and then the tag's frame (R131 to R133). -/
theorem of_encodePayload_eq_ok {key : Key} {tag : Tag} {v : Value} {bs : List Byte}
    (h : encodePayload key tag v = .ok bs) :
    parity key = tag.bit ∧ bs = if tag = .integer then integerFrame key (integerOf v) else floatFrame key v := by
  by_cases hpar : parity key = tag.bit
  · exact ⟨hpar, Except.ok.inj (h.symm.trans (encodePayload_of_parity hpar v))⟩
  · cases h.symm.trans (encodePayload_of_wrongParity hpar v)

/-- The bytes of ENCODE decode to the row that writes them. -/
theorem decode_encodePayload {key : Key} {tag : Tag} {v : Value} {bs : List Byte}
    (h : encodePayload key tag v = .ok bs) : decode .encode bs = .ok (frameUnit key v tag) := by
  obtain ⟨hpar, rfl⟩ := of_encodePayload_eq_ok h
  cases tag with
  | integer => exact decode_integerFrame (integerOf v) hpar
  | float => exact decode_floatFrame v hpar

/-- A frame has 4 bytes for an integer and 6 for a float (R81, R82). -/
theorem length_of_encodePayload {key : Key} {tag : Tag} {v : Value} {bs : List Byte}
    (h : encodePayload key tag v = .ok bs) : bs.length = if tag = .integer then 4 else 6 := by
  obtain ⟨-, rfl⟩ := of_encodePayload_eq_ok h
  cases tag <;> rfl

/-- Settles O15: two payloads with the same bytes have the same row, since decoding is a function of the bytes. -/
theorem encodeIsInjective : Obligations.EncodeIsInjective := by
  intro k k' t t' v v' bs h
  have length := length_of_encodePayload h
  have sameUnit (h' : encodePayload k' t' v' = .ok bs) : frameUnit k' v' t' = frameUnit k v t :=
    Except.ok.inj ((decode_encodePayload h').symm.trans (decode_encodePayload h))
  cases t with
  | integer =>
    refine ⟨length, fun h' => ?_⟩
    cases t' with
    | integer =>
      obtain ⟨key, val⟩ := Instr.encInt.inj (sameUnit h')
      exact ⟨key, rfl, val⟩
    | float => cases sameUnit h'
  | float =>
    refine ⟨length, fun h' => ?_⟩
    cases t' with
    | integer => cases sameUnit h'
    | float =>
      obtain ⟨key, val⟩ := Instr.encFlt.inj (sameUnit h')
      exact ⟨key, rfl, val⟩

/-! #### The round trip through RECV (R134) -/

/-- What a RECV delivers, by the key's bit 0. -/
theorem Payload.delivered_eq (p : Payload) :
    p.delivered = if parity p.key = true then p.value else resultOfInteger (integerOf p.value) := by
  rw [Payload.delivered, Tag.ofKey]
  cases parity p.key <;> rfl

/-- With key 0's bytes at the head of RXQ, RECV consumes them and ends with NoMessage (R148). -/
theorem execRecv_keyNone {s : State} {q : List Byte} (hidle : s.phase = .idle) (hs : s.sync = true)
    (hq : s.rxq = halfBytes Config.keyNone ++ q) : execRecv s = .next (s.setRxq q).completeNoMessage := by
  simp only [execRecv, hidle, hs, if_true, keyStage_eq s hidle hs, hq, halfBytes, List.cons_append, List.nil_append,
    halfOfBytes_split]

theorem Payload.frame_of_even (p : Payload) (even : parity p.key = false) :
    p.frame = integerFrame p.key (integerOf p.value) := by
  simp [Payload.frame, Tag.ofKey, even]

/-- Settles O50: the bytes are the payload's frame, which a RECV takes in two steps; key 0 ends in its key stage. -/
theorem encodeThenDecodeRoundTrip : Obligations.EncodeThenDecodeRoundTrip := by
  intro s k v bs hidle hs hturns hport henc hq
  have hframe : s.rxq = (Payload.mk k v).frame :=
    hq.trans (Except.ok.inj (henc.symm.trans (encodePayload_frame ⟨k, v⟩)))
  refine ⟨fun nonzero => ?_, ?_⟩
  · have received := runFor_recv_frame (p := ⟨k, v⟩) (q := []) nonzero hidle hs hturns hport (by simp [hframe])
    exact ⟨_, received, rfl, rfl, rfl, rfl, Payload.delivered_eq ⟨k, v⟩, rfl⟩
  · rintro rfl
    have even : parity 0 = false := by decide
    have ended : step s = .next ((s.setHostCmds []).setRxq (halfBytes (integerOf v))).completeNoMessage := by
      rw [step_default_host hturns hidle hport, decodeCommand_recv]
      exact execRecv_keyNone (s := s.setHostCmds []) hidle hs (hframe.trans (Payload.frame_of_even ⟨0, v⟩ even))
    exact ⟨_, runFor_succ 0 ended, rfl, rfl, halfBytes_integerOf v⟩

end Sys2Proof.Machine
end

/-! ### DECODE (R145 to R154) -/

section
namespace Sys2Proof.Machine

variable {s : State} {key : Key}

/-! #### The key stage: the rows of the key, and RECV (R146 to R149) -/

theorem inKeyStage_iff (s : State) : inKeyStage s = true ↔ s.phase = .idle ∧ s.sync = true := by
  simp [inKeyStage]

/-- DEC.KEY0 in the key stage (R148). -/
theorem execDecKey0_keyStage (hk : inKeyStage s = true) : execDecKey0 s = .next s.completeNoMessage :=
  if_pos hk

/-- DEC.INT in the key stage (R149). -/
theorem execDecInt_keyStage (hk : inKeyStage s = true) (nonzero : key ≠ Config.keyNone) (even : parity key = false) :
    execDecInt key s = .next (recognizeFrame key s) := by
  simp [execDecInt, hk, nonzero, even]

/-- DEC.FLT in the key stage (R149). -/
theorem execDecFlt_keyStage (hk : inKeyStage s = true) (odd : parity key = true) :
    execDecFlt key s = .next (recognizeFrame key s) := by
  simp [execDecFlt, hk, odd]

/-- Whatever row a nonzero key selects, in the key stage it recognizes the frame (R149). -/
theorem exec_decodeKey_of_ne_zero (hk : inKeyStage s = true) (nonzero : key ≠ Config.keyNone) :
    exec (decodeKey key) s = .next (recognizeFrame key s) := by
  cases hp : parity key with
  | false =>
    rw [decodeKey_even nonzero hp]
    exact execDecInt_keyStage hk nonzero hp
  | true =>
    rw [decodeKey_odd hp]
    exact execDecFlt_keyStage hk hp

/-- With a whole key buffered, RECV runs the key's row in the state without the key's bytes (R147 to R149, R169). -/
theorem execRecv_of_key {b0 b1 : Byte} {q : List Byte} (hidle : s.phase = .idle) (hs : s.sync = true)
    (hq : s.rxq = b0 :: b1 :: q) : execRecv s = exec (decodeKey (halfOfBytes b0 b1)) (s.setRxq q) := by
  simp only [execRecv, hidle, hs, if_true, keyStage, rxRead_two, hq, decodeKey]
  cases classifyKey (halfOfBytes b0 b1) <;> rfl

/-- Without a whole key RECV consumes nothing (R146). -/
theorem execRecv_of_short (hidle : s.phase = .idle) (hs : s.sync = true) (short : s.rxq.length < 2) :
    execRecv s = .next s.completeNoMessage := by
  simp [execRecv, hidle, hs, keyStage, rxRead_eq, rxAvail, Nat.not_le.mpr short]

/-- Settles O8: the row the bytes decode to is the row of the key they make. -/
theorem recvRunsTheKeysRow : Obligations.RecvRunsTheKeysRow := by
  intro s b0 b1 q i hidle hs hq hdecode
  obtain rfl : decodeKey (halfOfBytes b0 b1) = i := Except.ok.inj hdecode
  exact execRecv_of_key hidle hs hq

/-- Settles O17: DEC.KEY0 in its stage, and RECV of key 0's two bytes. -/
theorem keyZeroIsNoMessage : Obligations.KeyZeroIsNoMessage := by
  intro s hidle hs
  refine ⟨?_, fun q hq => ?_⟩
  · exact execDecKey0_keyStage ((inKeyStage_iff s).mpr ⟨hidle, hs⟩)
  · exact execRecv_keyNone hidle hs hq

/-- Settles O18: each row recognizes its frame. -/
theorem nonzeroKeyIsRecognized : Obligations.NonzeroKeyIsRecognized := by
  intro s k hidle hs
  have hk := (inKeyStage_iff s).mpr ⟨hidle, hs⟩
  exact ⟨execDecInt_keyStage hk, execDecFlt_keyStage hk⟩

/-- Settles O22: RECV without a whole key. -/
theorem recvWithoutAWholeKey : Obligations.RecvWithoutAWholeKey := by
  intro s hidle hs short
  exact execRecv_of_short hidle hs short

/-- Settles O23: RECV runs the key's row, which recognizes the frame. -/
theorem recvTakesTheKey : Obligations.RecvTakesTheKey := by
  intro s b0 b1 q hidle hs hq nonzero
  have hk : inKeyStage (s.setRxq q) = true := (inKeyStage_iff _).mpr ⟨hidle, hs⟩
  refine (execRecv_of_key hidle hs hq).trans ?_
  rw [halfOfBytes_eq_append]
  exact exec_decodeKey_of_ne_zero hk nonzero

/-! #### The value stage: delivery (R150, R151) -/

theorem takeInteger_of_bytes {b2 b3 : Byte} {q : List Byte} (hq : s.rxq = b2 :: b3 :: q) :
    takeInteger s =
      ((s.setRxq q).latchResult s.keyReg .integer (resultOfInteger (b3 ++ b2))).finish .ok := by
  simp [takeInteger, rxRead_two, hq, halfOfBytes_eq_append]

theorem takeFloat_of_bytes {b2 b3 b4 b5 : Byte} {q : List Byte} (hq : s.rxq = b2 :: b3 :: b4 :: b5 :: q) :
    takeFloat s = ((s.setRxq q).latchResult s.keyReg .float (b5 ++ b4 ++ b3 ++ b2)).finish .ok := by
  simp [takeFloat, rxRead_four, hq, wordOfBytes_eq_append]

/-- Settles O19: DEC.INT in RX_WAIT takes the integer at the head of RXQ. -/
theorem integerValueIsDelivered : Obligations.IntegerValueIsDelivered := by
  rintro s k b2 b3 q hwait rfl even hq
  refine (execDecInt_rxWait s hwait even).trans ?_
  rw [takeInteger_of_bytes hq]
  rfl

/-- Settles O20: DEC.FLT in RX_WAIT takes the float at the head of RXQ. -/
theorem floatValueIsDelivered : Obligations.FloatValueIsDelivered := by
  rintro s k b2 b3 b4 b5 q hwait rfl odd hq
  refine (execDecFlt_rxWait s hwait odd).trans ?_
  rw [takeFloat_of_bytes hq]
  rfl

/-! #### The value stage: the hold (R152) -/

theorem takeInteger_of_short (short : s.rxq.length < 2) : takeInteger s = s := by
  simp [takeInteger, rxRead_eq, rxAvail, Nat.not_le.mpr short]

theorem takeFloat_of_short (short : s.rxq.length < 4) : takeFloat s = s := by
  simp [takeFloat, rxRead_eq, rxAvail, Nat.not_le.mpr short]

/-- With an even key in KEYREG the framer's turn in RX_WAIT is the integer's value stage (R150). -/
theorem framerTurn_rxWait_even (hwait : s.phase = .rxWait) (even : parity s.keyReg = false) :
    framerTurn s = .next (takeInteger s) := by
  have unit : fetchUnit s = some (.decInt s.keyReg) := by simp [fetchUnit, hwait, even]
  rw [framerTurn, unit]
  exact execDecInt_rxWait s hwait even

/-- With an odd key it is the float's (R151). -/
theorem framerTurn_rxWait_odd (hwait : s.phase = .rxWait) (odd : parity s.keyReg = true) :
    framerTurn s = .next (takeFloat s) := by
  have unit : fetchUnit s = some (.decFlt s.keyReg) := by simp [fetchUnit, hwait, odd]
  rw [framerTurn, unit]
  exact execDecFlt_rxWait s hwait odd

/-- RX_WAIT with value bytes missing: fewer than four of a float, than two of an integer (R150 to R152). -/
structure Holds (s : State) : Prop where
  phase : s.phase = .rxWait
  short : s.rxq.length < if parity s.keyReg = true then 4 else 2

/-- While the framer holds, its turn changes nothing (R152). -/
theorem Holds.framerTurn (h : Holds s) : framerTurn s = .next s := by
  obtain ⟨hwait, short⟩ := h
  cases hp : parity s.keyReg <;> simp only [hp, if_true, Bool.false_eq_true, if_false] at short
  · rw [framerTurn_rxWait_even hwait hp, takeInteger_of_short short]
  · rw [framerTurn_rxWait_odd hwait hp, takeFloat_of_short short]

/-- Neither the list of turns nor the host's plan has a part in the hold. -/
theorem Holds.surroundings (h : Holds s) (ts : List Turn) (cs : List CommandWord) :
    Holds ((s.setTurns ts).setHostCmds cs) :=
  ⟨h.phase, h.short⟩

/-- Settles O21: the framer's turn in a hold, once taken off the list. -/
theorem valueStageHolds : Obligations.ValueStageHolds := by
  intro s ts hturn hwait short
  rw [step_cons hturn]
  exact Holds.framerTurn (s := s.setTurns ts) ⟨hwait, short⟩

/-! #### No agent but the peer and reset ends the hold (R176, R255) -/

/-- In a hold a turn that brings no byte and no reset changes at most the host's plan. -/
theorem Holds.takeTurn {turn : Turn} (h : Holds s) (bare : s.params.uartWrapper = false)
    (noReset : ∀ q, turn ≠ .reset q) (quiet : arrivals [turn] = []) :
    ∃ cs, takeTurn turn s = .next (s.setHostCmds cs) := by
  cases turn with
  | framer => exact ⟨s.hostCmds, h.framerTurn⟩
  | host =>
    have busy : s.phase ≠ .idle := by simp [h.phase]
    exact ⟨s.hostCmds, hostTurn_waits (.inl busy)⟩
  | withdraw => exact ⟨s.hostCmds.tail, rfl⟩
  | peer b => cases quiet
  | time line =>
    have notWaiting : s.phase ≠ .hsWait := by simp [h.phase]
    have ticked : timeTick line s = s := by rw [timeTick_noWrapper line s bare, if_neg notWaiting]; rfl
    exact ⟨s.hostCmds, congrArg _ ticked⟩
  | reset q => exact absurd rfl (noReset q)

/-- So does a run over a list of such turns: by induction on the list. -/
theorem Holds.runFor {ts : List Turn} (h : Holds s) (bare : s.params.uartWrapper = false) (hturns : s.turns = ts)
    (keeps : noReset ts = true) (quiet : arrivals ts = []) :
    ∃ cs, runFor ts.length s = .next ((s.setTurns []).setHostCmds cs) := by
  induction ts generalizing s with
  | nil =>
    have same : s = (s.setTurns []).setHostCmds s.hostCmds := by rw [← hturns]; rfl
    exact ⟨s.hostCmds, congrArg _ same⟩
  | cons turn ts ih =>
    obtain ⟨noReset1, keeps⟩ := noReset_cons keeps
    obtain ⟨quiet1, quiet⟩ := List.append_eq_nil_iff.mp ((arrivals_cons turn ts).symm.trans quiet)
    obtain ⟨cs, taken⟩ := Holds.takeTurn (s := s.setTurns ts) (h.surroundings ts s.hostCmds) bare noReset1 quiet1
    obtain ⟨cs', run⟩ := ih (h.surroundings ts cs) bare rfl keeps quiet
    exact ⟨cs', (runFor_succ ts.length ((step_cons hturns).trans taken)).trans run⟩

/-- Settles O55: the run leaves everything but the turns and the host's plan as it was. -/
theorem halfAFrameStallsTheBlock : Obligations.HalfAFrameStallsTheBlock := by
  intro s hwait short keeps quiet bare
  have hold : Holds s := ⟨hwait, short⟩
  obtain ⟨cs, run⟩ := hold.runFor bare rfl keeps quiet
  exact ⟨_, run, hwait, rfl, rfl, rfl, rfl, rfl, rfl⟩

end Sys2Proof.Machine
end

/-! ### The host commands (R165 to R173) -/

section
namespace Sys2Proof.Machine

variable {s : State} {key : Key} {tag : Tag} {v : Value}

/-! #### The checks of a send in their order (R170 to R172, R174) -/

theorem sendCheck_of_unsynchronized (hs : s.sync = false) : sendCheck s = some .notSynchronized := by
  simp [sendCheck, hs]

theorem sendCheck_of_wrongParity (hs : s.sync = true) (hpar : parity s.txKey ≠ s.txTag.bit) :
    sendCheck s = some .invalidKeyParity := by
  simp [sendCheck, hs, hpar]

theorem sendCheck_of_keyNone (hs : s.sync = true) (hpar : parity s.txKey = s.txTag.bit)
    (hk : s.txKey = Config.keyNone) : sendCheck s = some .keyReserved := by
  rw [sendCheck, hpar, hs, if_pos hk]
  simp

/-! #### A send, by what its checks answer (R167, R168) -/

/-- The command that sends a key and a value under a tag. -/
def sendUnit (key : Key) (v : Value) : Tag → Instr
  | .integer => .sendI key v
  | .float => .sendF key v

/-- Accepted in IDLE, a send loads the operand latches before any check. -/
theorem exec_sendUnit (hidle : s.phase = .idle) :
    exec (sendUnit key v tag) s = .next (sendLatched (s.latchSend key tag v)) := by
  cases tag <;> exact if_pos hidle

/-- The first failing check is raised, with the latches loaded and nothing written. -/
theorem exec_sendUnit_refused {c : ResultCode} (hidle : s.phase = .idle)
    (fails : sendCheck (s.latchSend key tag v) = some c) :
    exec (sendUnit key v tag) s = .next ((s.latchSend key tag v).raise c) := by
  rw [exec_sendUnit hidle, sendLatched, fails]

/-- In a synchronized session a nonzero key of the tag's parity goes out in its frame. -/
theorem exec_sendUnit_sent (hidle : s.phase = .idle) (hs : s.sync = true) (hpar : parity key = tag.bit)
    (nonzero : key ≠ Config.keyNone) :
    exec (sendUnit key v tag) s = .next (((s.latchSend key tag v).txWrite
      (if tag = .integer then integerFrame key (integerOf v) else floatFrame key v)).complete .ok) := by
  have passes : sendCheck (s.latchSend key tag v) = none := sendCheck_eq_none hs hpar nonzero
  have frame : encodePayload (s.latchSend key tag v).txKey (s.latchSend key tag v).txTag
      (s.latchSend key tag v).txVal = _ := encodePayload_of_parity hpar v
  rw [exec_sendUnit hidle, sendLatched, passes, frame]

/-- Settles O25: check by check, and the frame of bits 15:0 of the value when all pass. -/
theorem sendIntegerOutcomes : Obligations.SendIntegerOutcomes := by
  intro s k v hidle
  refine ⟨fun hs => ?_, fun hs odd => ?_, fun hs zero => ?_, fun hs even nonzero => ?_⟩
  · exact exec_sendUnit_refused (tag := .integer) hidle (sendCheck_of_unsynchronized hs)
  · have wrong : parity k ≠ Tag.integer.bit := ne_of_eq_of_ne odd (by decide)
    exact exec_sendUnit_refused (tag := .integer) hidle (sendCheck_of_wrongParity hs wrong)
  · have even : parity k = Tag.integer.bit := by rw [zero]; decide
    exact exec_sendUnit_refused (tag := .integer) hidle (sendCheck_of_keyNone hs even zero)
  · refine (exec_sendUnit_sent (tag := .integer) hidle hs even nonzero).trans ?_
    rw [if_pos rfl, integerFrame, halfBytes_integerOf]
    rfl

/-- An odd key is none that R91 reserves. -/
theorem ne_keyNone_of_odd (odd : parity key = true) : key ≠ Config.keyNone := by
  rintro rfl
  exact absurd odd (by decide)

/-- Settles O26: check by check; the reserved key is even and fails at the parity. -/
theorem sendFloatOutcomes : Obligations.SendFloatOutcomes := by
  intro s k v hidle
  refine ⟨fun hs => ?_, fun hs even => ?_, fun hs odd => ?_⟩
  · exact exec_sendUnit_refused (tag := .float) hidle (sendCheck_of_unsynchronized hs)
  · have wrong : parity k ≠ Tag.float.bit := ne_of_eq_of_ne even (by decide)
    exact exec_sendUnit_refused (tag := .float) hidle (sendCheck_of_wrongParity hs wrong)
  · exact exec_sendUnit_sent (tag := .float) hidle hs odd (ne_keyNone_of_odd odd)

/-! #### The other commands in IDLE -/

/-- OPEN accepted (R166). -/
theorem execOpen_idle (hidle : s.phase = .idle) :
    execOpen s = .next ((((s.setSync false).configure Config.linkRate).setHsCount 0).setPhase .hsSend) :=
  if_pos hidle

/-- RECV outside a session (R170). -/
theorem execRecv_of_unsynchronized (hidle : s.phase = .idle) (hs : s.sync = false) :
    execRecv s = .next (s.raise .notSynchronized) := by
  simp [execRecv, hidle, hs]

/-- The reserved opcode accepted (R173). -/
theorem execCmdReserved_idle (hidle : s.phase = .idle) : execCmdReserved s = .next (s.raise .illegalOp) :=
  if_pos hidle

/-- Settles O24: OPEN accepted, writer by writer. -/
theorem openStartsTheHandshake : Obligations.OpenStartsTheHandshake := by
  intro s hidle
  exact execOpen_idle hidle

/-- Settles O28: RECV's session check, and the first check of either send. -/
theorem unsynchronizedCommandsAreRefused : Obligations.UnsynchronizedCommandsAreRefused := by
  intro s k v hidle hs
  refine ⟨?_, ?_, ?_⟩
  · exact execRecv_of_unsynchronized hidle hs
  · exact exec_sendUnit_refused (tag := .integer) hidle (sendCheck_of_unsynchronized hs)
  · exact exec_sendUnit_refused (tag := .float) hidle (sendCheck_of_unsynchronized hs)

/-- Settles O29: the reserved opcode raises ILLEGAL_OP. -/
theorem reservedOpcodeIsIllegal : Obligations.ReservedOpcodeIsIllegal := by
  intro s hidle
  exact execCmdReserved_idle hidle

/-! #### Outside IDLE (R165) -/

/-- No command is accepted outside IDLE (R165; log 6). -/
theorem exec_command_of_busy {i : Instr} (hi : i.context = .command) (busy : s.phase ≠ .idle) :
    exec i s = .next s := by
  cases i with
  | openLink | sendI | sendF | recv | cmdReserved => exact if_neg busy
  | _ => cases hi

/-- Settles O30: no command's row is enabled, and the host's turn waits. -/
theorem commandsWaitWhileBusy : Obligations.CommandsWaitWhileBusy := by
  intro s busy
  refine ⟨fun i hi => exec_command_of_busy hi busy, fun ts hturn => ?_⟩
  rw [step_cons hturn]
  exact hostTurn_waits (s := s.setTurns ts) (.inl busy)

end Sys2Proof.Machine
end

/-! ### The sequencer's transitions (R165) -/

section
namespace Sys2Proof.Machine

/-- Where a command leads from IDLE: OPEN to HS_SEND, RECV perhaps to RX_WAIT, every other one nowhere (R165). -/
theorem phase_of_command {cw : CommandWord} {s t : State} (hx : exec (decodeCommand cw) s = .next t)
    (hp : s.phase = .idle) :
    t.phase = .idle ∨
    (t.phase = .hsSend ∧ decodeCommand cw = .openLink) ∨
    (t.phase = .rxWait ∧ decodeCommand cw = .recv) := by
  obtain ⟨hi, rfl⟩ | ⟨k, v, -, rfl⟩ | ⟨k, v, -, rfl⟩ | ⟨hi, recv⟩ | ⟨-, rfl⟩ := execCommand_cases hp hx
  · exact .inr (.inl ⟨rfl, hi⟩)
  · obtain ⟨-, -, -, idle, -⟩ := sendLatched_keeps (s.latchSend k .integer v)
    exact .inl idle
  · obtain ⟨-, -, -, idle, -⟩ := sendLatched_keeps (s.latchSend k .float v)
    exact .inl idle
  · obtain ⟨-, -, -, -, idle | ⟨wait, -⟩⟩ := execRecv_keeps hp recv
    · exact .inl idle
    · exact .inr (.inr ⟨wait, hi⟩)
  · exact .inl rfl

/-- The one way from IDLE to RX_WAIT: a nonzero key taken from RXQ into KEYREG (R149). -/
theorem Effect.key_of_rxWait {s t : State} (e : Effect s t) (hp : s.phase = .idle) (wait : t.phase = .rxWait) :
    s.sync = true ∧ ∃ b0 b1, s.rxq = b0 :: b1 :: t.rxq ∧ t.keyReg = b1 ++ b0 ∧ t.keyReg ≠ 0 := by
  cases e with
  | frameRecognized b0 b1 q _ hs hq nonzero => exact ⟨hs, b0, b1, hq, halfOfBytes_eq_append b0 b1, nonzero⟩
  | stay => cases hp.symm.trans wait
  | _ => cases wait

/-- The rows that the framer runs outside IDLE, with each one's event (R111 to R116, R150, R151). -/
theorem Effect.transition_of_busy {s t : State} (e : Effect s t) (busy : s.phase ≠ .idle) :
    t.phase = s.phase ∨
    (s.phase = .hsSend ∧ t.phase = .hsScan ∧ t.txq = s.txq ++ [0x24]) ∨
    (s.phase = .hsScan ∧ t.phase = .hsWait ∧ s.rxq = []) ∨
    (s.phase = .hsScan ∧ t.phase = .idle ∧ s.rxq = 0x24 :: t.rxq) ∨
    (s.phase = .hsWait ∧ t.phase = .hsSend ∧ s.hsTimer = 0 ∧
      (s.params.hsTimeoutCount = 0 ∨ s.hsCount.toNat < s.params.hsTimeoutCount)) ∨
    (s.phase = .hsWait ∧ t.phase = .idle ∧ s.hsTimer = 0 ∧ t.status = .handshakeTimeout ∧
      s.params.hsTimeoutCount ≠ 0 ∧ s.params.hsTimeoutCount ≤ s.hsCount.toNat) ∨
    (s.phase = .rxWait ∧ t.phase = .idle ∧ t.status = .ok ∧
      (if s.keyReg.getLsbD 0 = true then 4 else 2) ≤ s.rxq.length) := by
  cases e with
  | stay => exact .inl rfl
  | transmitSentinel hp => exact .inr (.inl ⟨hp, rfl, rfl⟩)
  | scanEmpty hp empty => exact .inr (.inr (.inl ⟨hp, rfl, empty⟩))
  | sentinelSeen q hp hq => exact .inr (.inr (.inr (.inl ⟨hp, rfl, hq⟩)))
  | byteDropped b q hp _ _ => exact .inl hp.symm
  | intervalOver hp ended below =>
    exact .inr (.inr (.inr (.inr (.inl ⟨hp, rfl, ended, (timeoutReached_eq_false_iff s).mp below⟩))))
  | timedOut hp ended reached =>
    exact .inr (.inr (.inr (.inr (.inr (.inl ⟨hp, rfl, ended, rfl, (timeoutReached_iff s).mp reached⟩)))))
  | integerTaken b2 b3 q hp even hq =>
    have enough : (if parity s.keyReg = true then 4 else 2) ≤ s.rxq.length := by simp [even, hq]
    exact .inr (.inr (.inr (.inr (.inr (.inr ⟨hp, rfl, rfl, enough⟩)))))
  | floatTaken b2 b3 b4 b5 q hp odd hq =>
    have enough : (if parity s.keyReg = true then 4 else 2) ≤ s.rxq.length := by simp [odd, hq]
    exact .inr (.inr (.inr (.inr (.inr (.inr ⟨hp, rfl, rfl, enough⟩)))))
  | _ => exact absurd ‹s.phase = .idle› busy

/-- Settles O45: a command leads out of IDLE by the first two rows, the framer by the next six, and no other agent but
reset writes PHASE. -/
theorem sequencerTransitions : Obligations.SequencerTransitions := by
  intro s t hstep changed
  cases stepEffect_of_step hstep with
  | framer ts t busy e =>
    obtain same | rows := e.transition_of_busy busy
    · exact absurd same changed
    · exact .inr (.inr (rows.imp_right (·.imp_right (·.imp_right (·.imp_right (·.imp_right .inl))))))
  | command ts cw t hp hc hx e =>
    obtain idle | ⟨send, opens⟩ | ⟨wait, recv⟩ := phase_of_command hx hp
    · exact absurd (idle.trans hp.symm) changed
    · exact .inl ⟨hp, send, cw, hc, opens⟩
    · obtain ⟨synced, key⟩ := e.key_of_rxWait hp wait
      exact .inr (.inl ⟨hp, wait, synced, ⟨cw, hc, recv⟩, key⟩)
  | surroundings | withdraw => exact absurd rfl changed
  | reset q ts listed =>
    exact .inr (.inr (.inr (.inr (.inr (.inr (.inr (.inr ⟨rfl, q, listed⟩)))))))

end Sys2Proof.Machine
end

/-! ### The wrapper's line: one tick, and a run of ticks -/

section
namespace Sys2Proof.Machine

variable {s : State}

/-- The wrapper is built and CONFIGURE has set a rate: its line moves (R192). -/
def LineOn (s : State) : Prop := s.params.uartWrapper = true ∧ s.baud ≠ 0

/-- While BAUD is 0 the wrapper's part of a tick is to note the line's level (R192). -/
theorem uartTick_of_baud_zero (line : Bool) (wired : s.params.uartWrapper = true) (silent : s.baud = 0) :
    uartTick line s = s.setUart { s.uart with rxPrev := line } := by
  rw [uartTick, if_pos wired, if_pos silent]

/-- With the line on, a tick is HSTIMER's, then the transmitter's, then the receiver's (R194, R195). -/
theorem timeTick_of_lineOn (line : Bool) (on : LineOn s) :
    ∃ n, timeTick line s = uartReceive line (uartTransmit (s.setHsTimer n)) := by
  obtain ⟨wired, configured⟩ := on
  have uart (n : Nat) : uartTick line (s.setHsTimer n) = uartReceive line (uartTransmit (s.setHsTimer n)) := by
    rw [uartTick, if_pos (show (s.setHsTimer n).params.uartWrapper = true from wired),
      if_neg (show (s.setHsTimer n).baud ≠ 0 from configured)]
  unfold timeTick
  split
  · exact ⟨_, uart (s.hsTimer - 1)⟩
  · exact ⟨_, uart s.hsTimer⟩

/-- The turn of time that stands first in the list, with this level on the line. -/
def tickTurn (s : State) (line : Bool) : State := timeTick line (s.setTurns s.turns.tail)

theorem step_tickTurn {line : Bool} {ts : List Turn} (hturn : s.turns = .time line :: ts) :
    step s = .next (tickTurn s line) := by
  rw [step_cons hturn, tickTurn, hturn]
  rfl

/-- A turn of time takes itself off the list and writes neither the parameters nor BAUD. -/
theorem tickTurn_keeps (s : State) (line : Bool) :
    (tickTurn s line).turns = s.turns.tail ∧ (tickTurn s line).params = s.params ∧
      (tickTurn s line).baud = s.baud := by
  obtain ⟨n, u, q, changes, -⟩ := timeTick_changes line (s.setTurns s.turns.tail)
  rw [tickTurn, changes]
  exact ⟨rfl, rfl, rfl⟩

theorem LineOn.tickTurn (on : LineOn s) (line : Bool) : LineOn (tickTurn s line) := by
  obtain ⟨-, hparams, hbaud⟩ := tickTurn_keeps s line
  rwa [LineOn, hparams, hbaud]

/-- Turns of time that stand first in the list run one by one. -/
theorem runFor_tickTurns (lines : List Bool) {s : State} {ts : List Turn} (hturns : s.turns = lines.map .time ++ ts) :
    runFor lines.length s = .next (lines.foldl tickTurn s) := by
  induction lines generalizing s with
  | nil => rfl
  | cons line lines ih =>
    rw [List.length_cons, runFor_succ _ (step_tickTurn hturns), List.foldl_cons]
    exact ih (by rw [(tickTurn_keeps s line).1, hturns]; rfl)

/-- Settles O59: the tick is the wrapper's part alone, since HSTIMER counts in HS_WAIT only. -/
theorem wrapperIsSilentUntilConfigured : Obligations.WrapperIsSilentUntilConfigured := by
  intro s ts line hturn wired silent notWaiting
  have noCount : ¬ ((s.setTurns ts).phase = .hsWait ∧ (s.setTurns ts).hsTimer ≠ 0) := fun h => notWaiting h.1
  have tick : timeTick line (s.setTurns ts) = uartTick line (s.setTurns ts) := by rw [timeTick, if_neg noCount]
  rw [step_cons hturn, takeTurn, tick, uartTick_of_baud_zero (s := s.setTurns ts) line wired silent]
  rfl

/-- Settles O56: position by position. -/
theorem lineFormat : Obligations.LineFormat := by
  refine ⟨fun b => ⟨rfl, rfl, fun i hi => ?_, rfl⟩, fun s idle => ?_, by decide⟩
  · interval_cases i <;> rfl
  · rw [txLine, idle]

end Sys2Proof.Machine
end

/-! ### The wrapper's transmitter -/

section
namespace Sys2Proof.Machine

variable {s : State}

/-- The state without what the transmitter neither reads nor writes in a turn of time: HSTIMER, the turns still to
come, RXQ and the receiver's registers. -/
def State.txSide (s : State) : State :=
  { s with hsTimer := 0, turns := [], rxq := [], uart := { s.uart with rxPrev := true, rxBits := none, rxTicks := 0 } }

theorem txSide_peerArrive (b : Byte) (s : State) : (s.peerArrive b).txSide = s.txSide := by
  rw [State.peerArrive, apply_ite State.txSide]
  exact ite_self _

/-- The receiver's tick does not reach the transmitter. -/
theorem txSide_uartReceive (line : Bool) (s : State) : (uartReceive line s).txSide = s.txSide := by
  unfold uartReceive
  rcases s.uart.rxBits with _ | bits <;> simp only [apply_ite State.txSide, txSide_peerArrive]
  · exact ite_self _
  · exact (ite_congr rfl (fun _ => ite_self _) fun _ => rfl).trans (ite_self _)

/-- The transmitter's tick depends on its own side alone. -/
theorem txSide_uartTransmit (s : State) : (uartTransmit s).txSide = uartTransmit s.txSide := by
  have shift : s.txSide.uart.txShift = s.uart.txShift := rfl
  have untaken : s.txSide.txq.drop s.txSide.uart.txTaken = s.txq.drop s.uart.txTaken := rfl
  simp only [uartTransmit, shift, untaken]
  rcases s.uart.txShift with _ | ⟨level, rest⟩
  · rcases s.txq.drop s.uart.txTaken with _ | ⟨b, q⟩ <;> rfl
  · simp only [apply_ite State.txSide]
    rfl

theorem txSide_tickTurn (on : LineOn s) (line : Bool) : (tickTurn s line).txSide = uartTransmit s.txSide := by
  obtain ⟨n, tick⟩ := timeTick_of_lineOn (s := s.setTurns s.turns.tail) line on
  rw [tickTurn, tick, txSide_uartReceive, txSide_uartTransmit]
  rfl

/-- On the transmitter's side a run of ticks is the transmitter's ticks, whatever the receive line does. -/
theorem txSide_foldl_tickTurn (lines : List Bool) {s : State} (on : LineOn s) :
    (lines.foldl tickTurn s).txSide = uartTransmit^[lines.length] s.txSide := by
  induction lines generalizing s with
  | nil => rfl
  | cons line lines ih => rw [List.foldl_cons, ih (on.tickTurn line), txSide_tickTurn on line]; rfl

/-- The transmitter's registers. -/
def State.setTransmitter (s : State) (taken : Nat) (shift : List Bool) (ticks : Nat) : State :=
  s.setUart { s.uart with txTaken := taken, txShift := shift, txTicks := ticks }

/-- An idle transmitter takes the next byte at once (log 17). -/
theorem uartTransmit_idle {b : Byte} (idle : s.uart.txShift = []) (untaken : s.txq[s.uart.txTaken]? = some b) :
    uartTransmit s = s.setTransmitter (s.uart.txTaken + 1) (lineLevels b) (bitPeriod s - 1) := by
  obtain ⟨within, rfl⟩ := List.getElem?_eq_some_iff.mp untaken
  simp only [uartTransmit, idle, List.drop_eq_getElem_cons within]
  rfl

/-- Within its bit period the level is held. -/
theorem uartTransmit_hold (s : State) (taken ticks : Nat) {shift : List Bool} (busy : shift ≠ []) :
    uartTransmit (s.setTransmitter taken shift (ticks + 1)) = s.setTransmitter taken shift ticks := by
  obtain ⟨level, rest, rfl⟩ := List.exists_cons_of_ne_nil busy
  rfl

/-- At the end of its bit period the level gives way to the next. -/
theorem uartTransmit_next (s : State) (taken : Nat) {shift : List Bool} (busy : shift ≠ []) :
    uartTransmit (s.setTransmitter taken shift 0) = s.setTransmitter taken shift.tail (bitPeriod s - 1) := by
  obtain ⟨level, rest, rfl⟩ := List.exists_cons_of_ne_nil busy
  rfl

/-- After its first tick and `i` more the transmitter stands in bit period `i / bitPeriod`, with the ticks of it left
that `i` has not passed. -/
theorem iterate_uartTransmit {b : Byte} (period : 1 ≤ bitPeriod s) (idle : s.uart.txShift = [])
    (untaken : s.txq[s.uart.txTaken]? = some b) (i : Nat) (during : i < 10 * bitPeriod s) :
    uartTransmit^[i + 1] s = s.setTransmitter (s.uart.txTaken + 1) ((lineLevels b).drop (i / bitPeriod s))
      (bitPeriod s - 1 - i % bitPeriod s) := by
  induction i with
  | zero =>
    rw [Nat.zero_div, Nat.zero_mod]
    exact uartTransmit_idle idle untaken
  | succ i ih =>
    have inByte : i / bitPeriod s < 10 := by
      rw [Nat.div_lt_iff_lt_mul period]
      omega
    have busy : (lineLevels b).drop (i / bitPeriod s) ≠ [] := by
      rw [ne_eq, List.drop_eq_nil_iff, not_le]
      exact inByte
    rw [Function.iterate_succ_apply', ih (by omega)]
    have inPeriod := Nat.mod_lt i period
    have division := Nat.mod_add_div i (bitPeriod s)
    by_cases last : i % bitPeriod s + 1 = bitPeriod s
    · have position : (i + 1) / bitPeriod s = i / bitPeriod s + 1 ∧ (i + 1) % bitPeriod s = 0 :=
        (Nat.div_mod_unique period).mpr ⟨by rw [Nat.mul_add]; omega, period⟩
      have spent : bitPeriod s - 1 - i % bitPeriod s = 0 := by omega
      rw [spent, uartTransmit_next _ _ busy, List.tail_drop, position.1, position.2, Nat.sub_zero]
    · have position : (i + 1) / bitPeriod s = i / bitPeriod s ∧ (i + 1) % bitPeriod s = i % bitPeriod s + 1 :=
        (Nat.div_mod_unique period).mpr ⟨by omega, by omega⟩
      have left : bitPeriod s - 1 - i % bitPeriod s = bitPeriod s - 1 - (i % bitPeriod s + 1) + 1 := by omega
      rw [left, uartTransmit_hold _ _ _ busy, position.1, position.2]

/-- Settles O58: the transmitter's side of the run, read at its end. -/
theorem uartTransmitsTheNextByte : Obligations.UartTransmitsTheNextByte := by
  intro s b lines i wired configured period idle untaken hturns during listed
  have ticksFirst : s.turns = (lines.take (i + 1)).map .time ++ (lines.drop (i + 1)).map .time := by
    rw [← List.map_append, List.take_append_drop, hturns]
  have count : (lines.take (i + 1)).length = i + 1 := List.length_take_of_le listed
  have run := runFor_tickTurns _ ticksFirst
  have side := txSide_foldl_tickTurn (lines.take (i + 1)) (s := s) ⟨wired, configured⟩
  rw [count, iterate_uartTransmit (s := s.txSide) period idle untaken i during] at side
  rw [count] at run
  generalize (lines.take (i + 1)).foldl tickTurn s = t at run side
  have shift : t.uart.txShift = (lineLevels b).drop (i / bitPeriod s) := congrArg (·.uart.txShift) side
  have inByte : i / bitPeriod s < (lineLevels b).length := (Nat.div_lt_iff_lt_mul period).mpr during
  refine ⟨t, run, ?_, congrArg (·.uart.txTaken) side, congrArg (·.txq) side⟩
  rw [txLine, shift, List.drop_eq_getElem_cons inByte, List.getElem?_eq_getElem inByte]

end Sys2Proof.Machine
end

/-! ### The wrapper's receiver -/

section
namespace Sys2Proof.Machine

variable {s : State}

/-- The state without what the receiver neither reads nor writes in a turn of time: HSTIMER, the turns still to come,
TXQ and the transmitter's registers. -/
def State.rxSide (s : State) : State :=
  { s with hsTimer := 0, turns := [], txq := [], uart := { s.uart with txTaken := 0, txShift := [], txTicks := 0 } }

/-- The transmitter's tick does not reach the receiver. -/
theorem rxSide_uartTransmit (s : State) : (uartTransmit s).rxSide = s.rxSide := by
  unfold uartTransmit
  rcases s.uart.txShift with _ | ⟨level, rest⟩
  · rcases s.txq.drop s.uart.txTaken with _ | ⟨b, q⟩ <;> rfl
  · simp only [apply_ite State.rxSide]
    exact ite_self _

theorem rxSide_peerArrive (b : Byte) (s : State) : (s.peerArrive b).rxSide = s.rxSide.peerArrive b := by
  simp only [State.peerArrive, apply_ite State.rxSide]
  rfl

/-- The receiver's tick depends on its own side alone. -/
theorem rxSide_uartReceive (line : Bool) (s : State) : (uartReceive line s).rxSide = uartReceive line s.rxSide := by
  have bits : s.rxSide.uart.rxBits = s.uart.rxBits := rfl
  simp only [uartReceive, bits]
  rcases s.uart.rxBits with _ | bits
  · simp only [apply_ite State.rxSide]
    rfl
  · simp only [apply_ite State.rxSide, rxSide_peerArrive]
    rfl

theorem rxSide_tickTurn (on : LineOn s) (line : Bool) : (tickTurn s line).rxSide = uartReceive line s.rxSide := by
  obtain ⟨n, tick⟩ := timeTick_of_lineOn (s := s.setTurns s.turns.tail) line on
  rw [tickTurn, tick, rxSide_uartReceive, rxSide_uartTransmit]
  rfl

/-- The receiver's ticks under these levels of the line. -/
def uartReceiveAll (lines : List Bool) (s : State) : State := lines.foldl (fun s line => uartReceive line s) s

@[simp] theorem uartReceiveAll_nil (s : State) : uartReceiveAll [] s = s := rfl

@[simp] theorem uartReceiveAll_cons (line : Bool) (lines : List Bool) (s : State) :
    uartReceiveAll (line :: lines) s = uartReceiveAll lines (uartReceive line s) := rfl

@[simp] theorem uartReceiveAll_append (lines lines' : List Bool) (s : State) :
    uartReceiveAll (lines ++ lines') s = uartReceiveAll lines' (uartReceiveAll lines s) := List.foldl_append

/-- On the receiver's side a run of ticks is the receiver's ticks, whatever the transmitter does. -/
theorem rxSide_foldl_tickTurn (lines : List Bool) {s : State} (on : LineOn s) :
    (lines.foldl tickTurn s).rxSide = uartReceiveAll lines s.rxSide := by
  induction lines generalizing s with
  | nil => rfl
  | cons line lines ih =>
    rw [List.foldl_cons, ih (on.tickTurn line), rxSide_tickTurn on line, uartReceiveAll_cons]

/-- The receiver's registers. -/
def State.setReceiver (s : State) (bits : Option (List Bool)) (prev : Bool) (ticks : Nat) : State :=
  s.setUart { s.uart with rxBits := bits, rxPrev := prev, rxTicks := ticks }

/-- An arrival neither reads nor writes the receiver's registers. -/
theorem peerArrive_setReceiver (s : State) (bits : Option (List Bool)) (prev : Bool) (ticks : Nat) (b : Byte) :
    (s.setReceiver bits prev ticks).peerArrive b = (s.peerArrive b).setReceiver bits prev ticks := by
  have deaf : transportDeaf (s.setReceiver bits prev ticks) = transportDeaf s := rfl
  have room : rxHasRoom (s.setReceiver bits prev ticks) = rxHasRoom s := rfl
  simp only [State.peerArrive, deaf, room]
  split <;> rfl

/-! #### One tick of the receiver -/

/-- A fall of the idle line is a start bit; the first sample is due in the middle of the period after it. -/
theorem uartReceive_startBit (s : State) (ticks : Nat) :
    uartReceive false (s.setReceiver none true ticks) =
      s.setReceiver (some []) false (bitPeriod s + bitPeriod s / 2 - 1) := rfl

/-- Without a fall of the line the receiver stays idle. -/
theorem uartReceive_idle (s : State) {prev line : Bool} (ticks : Nat) (noFall : (prev && !line) = false) :
    uartReceive line (s.setReceiver none prev ticks) = s.setReceiver none line ticks := by
  have noStart : ¬ (prev && !line) = true := by rw [noFall]; decide
  exact if_neg noStart

/-- Between two samples the receiver counts. -/
theorem uartReceive_count (s : State) (bits : List Bool) (prev line : Bool) (ticks : Nat) :
    uartReceive line (s.setReceiver (some bits) prev (ticks + 1)) = s.setReceiver (some bits) line ticks := rfl

theorem uartReceive_sample (s : State) {bits : List Bool} (prev line : Bool) (more : bits.length < 7) :
    uartReceive line (s.setReceiver (some bits) prev 0) =
      s.setReceiver (some (bits ++ [line])) line (bitPeriod s - 1) :=
  if_pos (show bits.length + 1 < 8 by omega)

/-- The eighth sample completes the byte. -/
theorem uartReceive_lastSample (s : State) {bits : List Bool} (prev line : Bool) (full : bits.length = 7) :
    uartReceive line (s.setReceiver (some bits) prev 0) =
      (s.peerArrive (byteOfBits (bits ++ [line]))).setReceiver none line 0 := by
  have arrives : uartReceive line (s.setReceiver (some bits) prev 0) =
      (s.setReceiver none line 0).peerArrive (byteOfBits (bits ++ [line])) :=
    if_neg (show ¬ bits.length + 1 < 8 by omega)
  rw [arrives, peerArrive_setReceiver]

/-! #### A level held for some ticks -/

theorem uartReceiveAll_replicate_idle (s : State) (level : Bool) (n ticks : Nat) :
    uartReceiveAll (List.replicate n level) (s.setReceiver none level ticks) = s.setReceiver none level ticks := by
  induction n with
  | zero => rfl
  | succ n ih => rw [List.replicate_succ, uartReceiveAll_cons, uartReceive_idle s ticks (Bool.and_not_self level), ih]

theorem uartReceiveAll_replicate_count (s : State) (bits : List Bool) (prev level : Bool) {n ticks : Nat}
    (before : n ≤ ticks) :
    uartReceiveAll (List.replicate n level) (s.setReceiver (some bits) prev ticks) =
      s.setReceiver (some bits) (if n = 0 then prev else level) (ticks - n) := by
  induction n generalizing prev ticks with
  | zero => rfl
  | succ n ih =>
    obtain ⟨ticks, rfl⟩ := Nat.exists_eq_add_of_le' (Nat.one_le_of_lt before)
    rw [List.replicate_succ, uartReceiveAll_cons, uartReceive_count, ih _ (by omega), ite_self, Nat.add_sub_add_right]
    rfl

/-- A bit period by its tick in the middle, where the line is sampled. -/
theorem replicate_period {period : Nat} (h : 1 ≤ period) (level : Bool) :
    List.replicate period level =
      List.replicate (period / 2) level ++ level :: List.replicate (period - 1 - period / 2) level := by
  rw [← List.replicate_succ, List.replicate_append_replicate]
  congr 1
  omega

/-- The start bit's period ends in the middle of the wait for the first sample. -/
theorem uartReceiveAll_startBit (ticks : Nat) (period : 1 ≤ bitPeriod s) :
    uartReceiveAll (List.replicate (bitPeriod s) false) (s.setReceiver none true ticks) =
      s.setReceiver (some []) false (bitPeriod s / 2) := by
  have fall : List.replicate (bitPeriod s) false = false :: List.replicate (bitPeriod s - 1) false := by
    rw [← List.replicate_succ, Nat.sub_add_cancel period]
  have left : bitPeriod s + bitPeriod s / 2 - 1 - (bitPeriod s - 1) = bitPeriod s / 2 := by omega
  rw [fall, uartReceiveAll_cons, uartReceive_startBit, uartReceiveAll_replicate_count _ _ _ _ (by omega), left,
    ite_self]

theorem uartReceiveAll_dataBit {bits : List Bool} (prev level : Bool) (period : 1 ≤ bitPeriod s)
    (more : bits.length < 7) :
    uartReceiveAll (List.replicate (bitPeriod s) level) (s.setReceiver (some bits) prev (bitPeriod s / 2)) =
      s.setReceiver (some (bits ++ [level])) level (bitPeriod s / 2) := by
  have left : bitPeriod s - 1 - (bitPeriod s - 1 - bitPeriod s / 2) = bitPeriod s / 2 := by omega
  rw [replicate_period period, uartReceiveAll_append, uartReceiveAll_replicate_count _ _ _ _ le_rfl, Nat.sub_self,
    uartReceiveAll_cons, uartReceive_sample s _ level more,
    uartReceiveAll_replicate_count _ _ _ _ (Nat.sub_le _ _), left, ite_self]

theorem uartReceiveAll_lastDataBit {bits : List Bool} (prev level : Bool) (period : 1 ≤ bitPeriod s)
    (full : bits.length = 7) :
    uartReceiveAll (List.replicate (bitPeriod s) level) (s.setReceiver (some bits) prev (bitPeriod s / 2)) =
      (s.peerArrive (byteOfBits (bits ++ [level]))).setReceiver none level 0 := by
  rw [replicate_period period, uartReceiveAll_append, uartReceiveAll_replicate_count _ _ _ _ le_rfl, Nat.sub_self,
    uartReceiveAll_cons, uartReceive_lastSample s _ level full, uartReceiveAll_replicate_idle]

theorem uartReceiveAll_stopBit (prev : Bool) (ticks : Nat) {n : Nat} (period : 1 ≤ n) :
    uartReceiveAll (List.replicate n true) (s.setReceiver none prev ticks) = s.setReceiver none true ticks := by
  obtain ⟨n, rfl⟩ := Nat.exists_eq_add_of_le' period
  rw [List.replicate_succ, uartReceiveAll_cons, uartReceive_idle s ticks (by simp), uartReceiveAll_replicate_idle]

/-! #### A byte on the line -/

/-- The data bits still to come, and the stop bit, complete the byte. -/
theorem uartReceiveAll_dataBits (period : 1 ≤ bitPeriod s) (bits rest : List Bool) (prev : Bool)
    (started : bits.length < 8) (total : bits.length + rest.length = 8) :
    uartReceiveAll ((rest ++ [true]).flatMap (List.replicate (bitPeriod s)))
        (s.setReceiver (some bits) prev (bitPeriod s / 2)) =
      (s.peerArrive (byteOfBits (bits ++ rest))).setReceiver none true 0 := by
  induction rest generalizing bits prev with
  | nil =>
    rw [List.length_nil] at total
    omega
  | cons level rest ih =>
    rw [List.length_cons] at total
    have longer : (bits ++ [level]).length = bits.length + 1 := List.length_append
    rw [List.cons_append, List.flatMap_cons, uartReceiveAll_append]
    by_cases more : bits.length < 7
    · rw [uartReceiveAll_dataBit prev level period more, ih _ _ (by omega) (by omega), List.append_assoc,
        List.singleton_append]
    · obtain rfl : rest = [] := List.length_eq_zero_iff.mp (by omega)
      rw [uartReceiveAll_lastDataBit prev level period (by omega)]
      simp [uartReceiveAll_stopBit _ _ period]

theorem getLsbD_byteOfBits (ds : List Bool) {i : Nat} (hi : i < 8) : (byteOfBits ds).getLsbD i = ds.getD i false := by
  induction ds generalizing i with
  | nil => simp [byteOfBits]
  | cons d ds ih =>
    cases i with
    | zero => simp [byteOfBits]
    | succ i =>
      rw [List.getD_cons_succ, ← ih (by omega)]
      simp [byteOfBits, hi, Nat.lt_of_succ_lt hi]

/-- A byte is its data bits, least significant first (R193). -/
theorem byteOfBits_dataBits (b : Byte) :
    byteOfBits [b.getLsbD 0, b.getLsbD 1, b.getLsbD 2, b.getLsbD 3, b.getLsbD 4, b.getLsbD 5, b.getLsbD 6,
      b.getLsbD 7] = b := by
  apply BitVec.eq_of_getLsbD_eq
  intro i hi
  rw [getLsbD_byteOfBits _ hi]
  interval_cases i <;> rfl

/-- The levels of a byte, each held for one bit period (R193). -/
def byteOnLine (period : Nat) (b : Byte) : List Bool := (lineLevels b).flatMap (List.replicate period)

theorem length_byteOnLine (period : Nat) (b : Byte) : (byteOnLine period b).length = 10 * period := by
  simp only [byteOnLine, lineLevels, List.length_flatMap, List.length_replicate, List.map_cons, List.map_nil,
    List.sum_cons, List.sum_nil]
  omega

/-- To an idle receiver a byte on the line is an arrival of that byte (R195). -/
theorem uartReceiveAll_byteOnLine (b : Byte) (ticks : Nat) (period : 1 ≤ bitPeriod s) :
    uartReceiveAll (byteOnLine (bitPeriod s) b) (s.setReceiver none true ticks) =
      (s.peerArrive b).setReceiver none true 0 := by
  have data := uartReceiveAll_dataBits period [] [b.getLsbD 0, b.getLsbD 1, b.getLsbD 2, b.getLsbD 3, b.getLsbD 4,
    b.getLsbD 5, b.getLsbD 6, b.getLsbD 7] false (by decide) rfl
  rw [List.nil_append, byteOfBits_dataBits] at data
  rw [byteOnLine, lineLevels, List.flatMap_cons, uartReceiveAll_append, uartReceiveAll_startBit ticks period]
  exact data

/-- The turns of time of a byte on the line, as the receiver's side sees them. -/
theorem rxSide_byteOnLine (b : Byte) (on : LineOn s) (period : 1 ≤ bitPeriod s) (idle : s.uart.rxBits = none)
    (high : s.uart.rxPrev = true) :
    ((byteOnLine (bitPeriod s) b).foldl tickTurn s).rxSide = (s.peerArrive b).rxSide.setReceiver none true 0 := by
  have registers : s.rxSide = s.rxSide.setReceiver none true s.uart.rxTicks := by
    rw [← idle, ← high]
    rfl
  rw [rxSide_foldl_tickTurn _ on, registers, rxSide_peerArrive]
  exact uartReceiveAll_byteOnLine b _ period

/-- Settles O57: the receiver's side of the run is an arrival of the byte, kept just when there is room. -/
theorem uartReceivesTheByteOnTheLine : Obligations.UartReceivesTheByteOnTheLine := by
  intro s b wired configured period idle high hturns
  have listed : s.turns = (byteOnLine (bitPeriod s) b).map .time ++ [] := by
    simp [hturns, byteOnLine, List.map_flatMap]
  have run := runFor_tickTurns _ listed
  have side := rxSide_byteOnLine b ⟨wired, configured⟩ period idle high
  rw [length_byteOnLine] at run
  generalize (byteOnLine (bitPeriod s) b).foldl tickTurn s = t at run side
  have arrived : t.rxq = (s.peerArrive b).rxq := congrArg (·.rxq) side
  have hears : transportDeaf s = false := by
    rw [Bool.eq_false_iff, ne_eq, transportDeaf_iff]
    exact fun deaf => configured deaf.2
  refine ⟨t, run, fun room => ?_, fun d depth full => ?_, congrArg (·.uart.rxBits) side,
    congrArg (·.uart.rxPrev) side⟩
  · have hasRoom : rxHasRoom s = true := by
      obtain unbounded | ⟨d, depth, below⟩ := room
      · simp [rxHasRoom, unbounded]
      · simp [rxHasRoom, depth, below]
    rw [arrived, peerArrive_of_room b hears hasRoom]
    rfl
  · have noRoom : rxHasRoom s = false := by simpa [rxHasRoom, depth] using full
    rw [arrived, peerArrive_of_lost b (.inr noRoom)]

end Sys2Proof.Machine
end

/-! ### Conditions and both ends of the link (R222, R229) -/

section
namespace Sys2Proof.Machine

/-- Settles O27: raising is `finish`, whose one record update is the statement's. -/
theorem raiseEndsTheOperation : Obligations.RaiseEndsTheOperation := by
  intro s c
  rw [State.raise_eq, State.finish, State.response]

/-- Settles O53: the bytes the sends wrote behind the sender's earlier ones are the payloads' frames, with nothing
after them, and the receiver decodes such a stream frame by frame. -/
theorem linkDeliversEveryPayload : Obligations.LinkDeliversEveryPayload := by
  intro ps a b hwf idleA syncA turnsA sends idleB syncB turnsB recvs
  obtain ⟨a', runA, -, -, -, txq, -⟩ := sendsWriteFramesInOrder ps a hwf idleA syncA turnsA sends
  have delivered : a'.txq.drop a.txq.length = ps.flatMap Payload.frame ++ [] := by
    rw [txq, List.drop_left, List.append_nil]
  obtain ⟨b', runB, -, -, rxq, -, responses⟩ :=
    framesAreDecodedInOrder ps [] { b with rxq := a'.txq.drop a.txq.length } hwf idleB syncB turnsB recvs delivered
  exact ⟨a', b', runA, runB, rxq, responses⟩

end Sys2Proof.Machine
end

/-! ### A residue of one byte, and reset (R256, R240) -/

section
namespace Sys2Proof.Machine

variable {s : State}

/-- A RECV without a whole key in the default order: one step, which ends the operation with NO_MESSAGE (R146). -/
theorem step_recv_of_short {cs : List CommandWord} (hidle : s.phase = .idle) (hs : s.sync = true)
    (hturns : s.turns = []) (short : s.rxq.length < 2) (hport : s.hostCmds = encodeCommand .recv :: cs) :
    step s = .next (s.setHostCmds cs).completeNoMessage := by
  rw [step_default_host hturns hidle hport, decodeCommand_recv]
  exact execRecv_of_short (s := s.setHostCmds cs) hidle hs short

/-- Settles O54: by induction on the RECVs, one step each, after which the next finds the same byte. -/
theorem oneByteOfResidueStays : Obligations.OneByteOfResidueStays := by
  intro n
  induction n with
  | zero =>
    intro s b hidle _ _ hq _
    exact ⟨s, rfl, hidle, hq, by simp⟩
  | succ n ih =>
    intro s b hidle hs hturns hq hport
    have short : s.rxq.length < 2 := by simp [hq]
    have answered := step_recv_of_short hidle hs hturns short hport
    obtain ⟨t, run, idle, rxq, rsp⟩ :=
      ih (s.setHostCmds (List.replicate n (encodeCommand .recv))).completeNoMessage b rfl hs hturns hq rfl
    refine ⟨t, (runFor_succ n answered).trans run, idle, rxq, ?_⟩
    simpa [State.completeNoMessage_eq, State.response, Config.keyNone, List.replicate_succ] using rsp

/-- A reset turn resets the state without that turn, whatever is in progress (R240, R241). -/
theorem step_reset {ts : List Turn} {q : Option (List Byte)} (hturn : s.turns = .reset q :: ts) :
    step s = .next (applyReset q (s.setTurns ts)) :=
  step_cons hturn

/-- Settles O32: the registers hold what `State.reset` gives them (R20, R240), the streams, the surroundings and the
responses are kept or the platform's, and the wrapper's line is abandoned (R200). -/
theorem resetClearsEveryRegister : Obligations.ResetClearsEveryRegister := by
  intro s ts q hturn
  refine ⟨applyReset q (s.setTurns ts), step_reset hturn, ?_⟩
  simp [applyReset, State.reset, Uart.abandon]

end Sys2Proof.Machine
end
